-- ==== Sys2Proof/Word.lean ====
section
/-! DEFINITION. The two word types of the block: the 8-bit bus byte and the 32-bit command and response word.

R46 (20_memory.md): every transfer over the bus is one byte, and the block's 32-bit quantities never travel on
it, so neither has a byte order. R7 (00_scope.md): all quantities are unsigned. -/

namespace Sys2Proof

/-- A byte on the PSG data bus; bit `i` travels on data line `i` (R7). -/
abbrev Byte := BitVec 8

/-- A command word, a response word, a hash or a frequency register (R60, R12, R14). -/
abbrev Word := BitVec 32

end Sys2Proof
end

