-- ==== Sys2Proof/Machine/Lines.lean ====
section
/-! DEFINITION. The lines toward the PSG and the items of the bus trace (10_state.md section 3, 40_bus_cycles.md R93). -/

namespace Sys2Proof.Machine

/-- `PHASE` (R17): the four phases of the control lines, under the document's names. -/
inductive Phase where
  | idle
  | read
  | write
  | addr
deriving DecidableEq, Repr, Inhabited

/-- The 2-bit coding of `PHASE` (table of R17). -/
def Phase.code : Phase → BitVec 2
  | .idle => 0b00#2
  | .read => 0b01#2
  | .write => 0b10#2
  | .addr => 0b11#2

/-- The four line-state fields that a `Set(...)` names (R8): `PHASE` (R17), `DOE` (R18), `DOUT` (R19), `RST` (R20).
The fifth line-state field, `CLKEN` (R23), is a field of State of its own. -/
structure Lines where
  phase : Phase
  doe   : Bool
  dout  : Byte
  rst   : Bool
deriving DecidableEq, Repr, Inhabited

/-- The lines at rest, with the byte last driven left in `DOUT` (R81, R19). -/
def Lines.rest (d : Byte) : Lines := { phase := .idle, doe := false, dout := d, rst := false }

/-- One item of the bus trace (00_scope.md R8 and glossary; 40_bus_cycles.md R93), log entry 9. -/
inductive TraceItem where
  /-- A line event `Set(...)`: the value all four fields have from this instant on. -/
  | set (l : Lines)
  /-- `Wait(t)`: `floor` is `t` in ns, `periods` the controller clock periods it was counted out in (R90). -/
  | wait (floor periods : Nat)
  /-- The sample of a read cycle (R86 step 3): the byte found on the bus. -/
  | sample (b : Byte)
  /-- What the clock output carries from this instant on (41_clock.md R104): nothing where `CLKEN` is 0, else the pair of
  `F_OSC` and `CLKDIV`. So a change of `CLKEN` is recorded (10_state.md section 3); it is no line event in the sense of the
  glossary. -/
  | clock (out : Option (Nat × Nat))
deriving DecidableEq, Repr, Inhabited

/-- What the chip can see of the lines: while `DOE = 0`, `DOUT` "has no effect on anything" (10_state.md R19), and the data
lines that the controller does not drive are at their pull-ups (R18). -/
def Lines.seen (l : Lines) : Lines :=
  { l with dout := if l.doe then l.dout else 0xFF#8 }

/-- What the chip can see of an item of the trace (20_memory.md R43, 10_state.md R19). -/
def TraceItem.seen : TraceItem → TraceItem
  | .set l => .set l.seen
  | .wait t n => .wait t n
  | .sample b => .sample b
  | .clock out => .clock out

end Sys2Proof.Machine
end

