-- ==== Sys2Proof/Config.lean ====
section
/-! DEFINITION. What one implementation fixes and the spec leaves open: the nine chip types, the open parameters of
00_scope.md R5, the values R30 leaves unspecified at power-on, and the free values (log entries 3, 4, 7, 11).

Nothing here has a body that a proof could see: the constants are opaque, so a statement about them holds whatever
they are. -/

namespace Sys2Proof

/-- `ChipType` (10_state.md R16): exactly nine values, in the document's order. -/
inductive ChipType where
  | notFound
  | badOrUnknown
  | compatible
  | ay38910A
  | ay38912A
  | ay38913A
  | ay8930
  | ym2149F
  | emulatorFirmware
deriving DecidableEq, Repr, Inhabited

/-- The open parameters of R5, one value for one machine. -/
structure Params where
  /-- `CLK_MIN`, Hz. -/
  clkMin       : Nat
  /-- `CLK_MAX`, Hz. -/
  clkMax       : Nat
  /-- `F_OSC`, Hz. -/
  fOsc         : Nat
  /-- `CLK_DIVIDER`, as the requests at which it differs from the default `F_OSC div f`, with its value there (log entry 6). -/
  dividers     : List (Nat × Nat)
  /-- `DEFAULT_CLOCK`, Hz. -/
  defaultClock : Nat
  /-- `F_CTRL`, Hz. -/
  fCtrl        : Nat
  /-- `REG_MIXER`. -/
  regMixer     : Fin 16
  /-- `REG_MODE_BANK`. -/
  regModeBank  : Fin 16
  /-- `PROBE_BASE[0]`. -/
  probeBase0   : Byte
  /-- `PROBE_BASE[1]`. -/
  probeBase1   : Byte
  /-- `SEL_BANK_A`. -/
  selBankA     : Byte
  /-- `SEL_BANK_B`. -/
  selBankB     : Byte
  /-- `SIG_TABLE`: pairs of a hash and the type it stands for (R123). -/
  sigTable     : List (Word × ChipType)
deriving DecidableEq, Repr, Inhabited

/-- What R30 leaves unspecified at power-on: "a model must not assume a value" (log entry 7). `SEQ` is a number 0 to 348
(R22). The running count of the clock generator (R31 (c)) has no power-on value in the spec either. -/
structure PowerOnValues where
  dout     : Byte
  clkdiv   : Word
  rdata    : Byte
  hash     : Word
  ctype    : BitVec 4
  seq      : Fin 349
  genCount : Nat
deriving DecidableEq, Repr, Inhabited

/-- The open parameters of this machine; they are used only where they meet R6 (`Machine.board`, log entry 4). -/
opaque Config.rawBoard : Params

/-- The unspecified values at power-on (R30, U8), log entry 7. -/
opaque Config.powerOnValues : PowerOnValues

/-- Which chip, in which condition, is attached at power-on, as a number that only free values depend on (log entries 3, 8). -/
opaque Config.chip : Nat

/-- The byte a chip answers to a read (R43, U4), a free value: it may depend on which chip it is, on the passing of time
(the counter of steps), on the clock it is given at the moment (70_reset_and_hazards.md R182) and on everything it has seen
(the bus trace so far, power cycles of the controller included). Log entries 3, 21. -/
opaque Config.psgByte (chip moment : Nat) (clock : Option (Nat × Nat)) (seen : List Machine.TraceItem) : Byte

/-- How far the clock generator has counted at a given moment, a free value before it is taken modulo `CLKDIV`
(R31 (c), R104, U9). Log entry 11. -/
opaque Config.oscCount (moment : Nat) : Nat

end Sys2Proof
end

