-- ==== Sys2Proof/Syntax.lean ====
section
/-! DEFINITION. The commands of the block: one constructor per row of spec/opcode_table.json (30_encoding.md R63),
and the pseudo-commands of R72. -/

namespace Sys2Proof

/-- A command (R63). Commands name no register; the operands are those of R65 and R66. -/
inductive Instr where
  /-- `RESET` (R89). -/
  | reset
  /-- `ADDR reg` (R83), `reg = arg[7:0]`. -/
  | addr (reg : Byte)
  /-- `WRITE data` (R85), `data = arg[7:0]`. -/
  | write (data : Byte)
  /-- `READ` (R87). -/
  | read
  /-- `SETCLK freq` (R102), `freq = zext_32(arg[27:0])` in Hz (R66). -/
  | setclk (freq : Word)
  /-- `GETCLK` (R103). -/
  | getclk
  /-- `IDENT` (R120). -/
  | ident
  /-- `INIT` (R140). -/
  | init
  /-- `GETHASH` (R143). -/
  | gethash
  /-- `GETTYPE` (R144). -/
  | gettype
  /-- `ISREADY` (R145). -/
  | isready
deriving DecidableEq, Repr, Inhabited

/-- The names of R72 that have no encoding of their own. -/
inductive Pseudo where
  /-- `reset()` and `Reset()`. -/
  | docReset
  /-- `selectAddress(r)`. -/
  | selectAddress (r : Byte)
  /-- `writeData(b)`. -/
  | writeData (b : Byte)
  /-- `readData()`. -/
  | readData
  /-- `configureClock(f)` and `SetClock(f)`. -/
  | configureClock (f : Word)
  /-- `currentClock()` and `GetClock()`. -/
  | currentClock
  /-- `Init()`. -/
  | docInit
  /-- `IsReady()`. -/
  | docIsReady
  /-- `WRREG r, b`. -/
  | wrreg (r b : Byte)
  /-- `RDREG r`. -/
  | rdreg (r : Byte)
deriving DecidableEq, Repr

end Sys2Proof
end

