-- ==== Sys2Proof/WellFormed.lean ====
section
/-! DEFINITION. Which commands have an encoding. The byte operands are bytes by their type; the one check left is that
`SETCLK`'s frequency fits its 28-bit field (30_encoding.md R66: "0 to 268,435,455"), log entry 15. -/

namespace Sys2Proof

/-- The command's operands fit the fields of its format (R62, R65, R66). -/
def Instr.wellFormed : Instr → Bool
  | .reset => true
  | .addr _ => true
  | .write _ => true
  | .read => true
  | .setclk freq => decide (freq.toNat < 2 ^ 28)
  | .getclk => true
  | .ident => true
  | .init => true
  | .gethash => true
  | .gettype => true
  | .isready => true

end Sys2Proof
end

