-- ==== Sys2Proof/Decode.lean ====
section
/-! DEFINITION. The decoder, total on command words, and the encoder after it (30_encoding.md R62 to R72). A word whose
`op` is reserved is rejected by name; the step then gives it the effect of R68 (log entry 13). -/

namespace Sys2Proof

/-- Why a command word is no row of the opcode map (R68). -/
inductive Reject where
  /-- `op` is 0x0, 0xC, 0xD, 0xE or 0xF. -/
  | reservedOp (op : BitVec 4)
deriving DecidableEq, Repr

/-- `op`, bits 31:28 (R62). -/
def opField (w : Word) : BitVec 4 := w.extractLsb' 28 4

/-- `arg`, bits 27:0 (R62). -/
def argField (w : Word) : BitVec 28 := w.extractLsb' 0 28

/-- The operand of `ADDR` and `WRITE`: `arg[7:0]`, unsigned, used as it is (R65). -/
def argByte (w : Word) : Byte := (argField w).extractLsb' 0 8

/-- The operand of `SETCLK`: `zext_32(arg[27:0])` (R66). -/
def argFreq (w : Word) : Word := (argField w).setWidth 32

/-- The decoder: `op` alone decides (R63, R68, R70); the bits of `arg` that a command's rule does not name are ignored (R69). -/
def decode (w : Word) : Except Reject Instr :=
  match (opField w).toNat with
  | 1 => .ok .reset
  | 2 => .ok (.addr (argByte w))
  | 3 => .ok (.write (argByte w))
  | 4 => .ok .read
  | 5 => .ok (.setclk (argFreq w))
  | 6 => .ok .getclk
  | 7 => .ok .ident
  | 8 => .ok .init
  | 9 => .ok .gethash
  | 10 => .ok .gettype
  | 11 => .ok .isready
  | _ => .error (.reservedOp (opField w))

/-- The opcode of a command (the `op` column of R63). -/
def Instr.opcode : Instr → BitVec 4
  | .reset => 0x1#4
  | .addr _ => 0x2#4
  | .write _ => 0x3#4
  | .read => 0x4#4
  | .setclk _ => 0x5#4
  | .getclk => 0x6#4
  | .ident => 0x7#4
  | .init => 0x8#4
  | .gethash => 0x9#4
  | .gettype => 0xA#4
  | .isready => 0xB#4

/-- The operand field of a command; unused bits are written as zero, as R69 asks of a host. -/
def Instr.operand : Instr → BitVec 28
  | .reset => 0
  | .addr reg => reg.setWidth 28
  | .write data => data.setWidth 28
  | .read => 0
  | .setclk freq => freq.setWidth 28
  | .getclk => 0
  | .ident => 0
  | .init => 0
  | .gethash => 0
  | .gettype => 0
  | .isready => 0

/-- The encoder: `CMD = {op, arg}` (R62). -/
def encode (i : Instr) : Word := i.opcode ++ i.operand

/-- The bits of a command word that its decoding depends on (R65, R66, R69). -/
def Instr.usedBits : Instr → Word
  | .addr _ => 0xF00000FF#32
  | .write _ => 0xF00000FF#32
  | .setclk _ => 0xFFFFFFFF#32
  | .reset => 0xF0000000#32
  | .read => 0xF0000000#32
  | .getclk => 0xF0000000#32
  | .ident => 0xF0000000#32
  | .init => 0xF0000000#32
  | .gethash => 0xF0000000#32
  | .gettype => 0xF0000000#32
  | .isready => 0xF0000000#32

/-- A row of the opcode map (R63). -/
structure OpRow where
  mnemonic : String
  pattern  : Word
  mask     : Word
deriving DecidableEq, Repr

/-- The opcode map: `match` and `mask` of R63, the rows of opcode_table.json. -/
def opcodeTable : List OpRow :=
  [ ⟨"RESET", 0x10000000#32, 0xF0000000#32⟩,
    ⟨"ADDR", 0x20000000#32, 0xF0000000#32⟩,
    ⟨"WRITE", 0x30000000#32, 0xF0000000#32⟩,
    ⟨"READ", 0x40000000#32, 0xF0000000#32⟩,
    ⟨"SETCLK", 0x50000000#32, 0xF0000000#32⟩,
    ⟨"GETCLK", 0x60000000#32, 0xF0000000#32⟩,
    ⟨"IDENT", 0x70000000#32, 0xF0000000#32⟩,
    ⟨"INIT", 0x80000000#32, 0xF0000000#32⟩,
    ⟨"GETHASH", 0x90000000#32, 0xF0000000#32⟩,
    ⟨"GETTYPE", 0xA0000000#32, 0xF0000000#32⟩,
    ⟨"ISREADY", 0xB0000000#32, 0xF0000000#32⟩ ]

/-- The mnemonic of a command (R63). -/
def Instr.mnemonic : Instr → String
  | .reset => "RESET"
  | .addr _ => "ADDR"
  | .write _ => "WRITE"
  | .read => "READ"
  | .setclk _ => "SETCLK"
  | .getclk => "GETCLK"
  | .ident => "IDENT"
  | .init => "INIT"
  | .gethash => "GETHASH"
  | .gettype => "GETTYPE"
  | .isready => "ISREADY"

/-- A command in the assembler syntax of R71: the mnemonic followed by its operand, a number in decimal (R7). -/
def Instr.assembly : Instr → String
  | .addr reg => "ADDR " ++ toString reg.toNat
  | .write data => "WRITE " ++ toString data.toNat
  | .setclk freq => "SETCLK " ++ toString freq.toNat
  | .reset => "RESET"
  | .read => "READ"
  | .getclk => "GETCLK"
  | .ident => "IDENT"
  | .init => "INIT"
  | .gethash => "GETHASH"
  | .gettype => "GETTYPE"
  | .isready => "ISREADY"

/-- What a pseudo-command expands to (R72). -/
def Pseudo.expand : Pseudo → List Instr
  | .docReset => [.reset]
  | .selectAddress r => [.addr r]
  | .writeData b => [.write b]
  | .readData => [.read]
  | .configureClock f => [.setclk f]
  | .currentClock => [.getclk]
  | .docInit => [.init]
  | .docIsReady => [.isready]
  | .wrreg r b => [.addr r, .write b]
  | .rdreg r => [.addr r, .read]

/-- The command word of an instruction whose bits, numbered as opcode_table.json numbers them, are `w`: one 32-bit word
(R62), every bit above `nbits` zero. -/
def tableWord (nbits w : Nat) : Word := BitVec.ofNat 32 (w % 2 ^ nbits)

/-- What the decoder reads from such an instruction; none where it rejects it. -/
def decodeTableWord (nbits w : Nat) : Option Instr :=
  match decode (tableWord nbits w) with
  | .ok i => some i
  | .error _ => none

end Sys2Proof
end

