-- ==== Sys2Proof/Machine/Timing.lean ====
section
/-! DEFINITION. The eight timing values of 00_scope.md R4, in nanoseconds, and how a wait is counted out
(40_bus_cycles.md R80, R90). -/

namespace Sys2Proof.Machine

/-- `T_AS`, address-setup (R4). -/
def tAS : Nat := 400
/-- `T_AH`, address-hold (R4). -/
def tAH : Nat := 100
/-- `T_DW`, write-data-setup (R4). -/
def tDW : Nat := 500
/-- `T_DH`, write-data-hold (R4). -/
def tDH : Nat := 100
/-- `T_DA`, read-data-access (R4). -/
def tDA : Nat := 500
/-- `T_TS`, bus-release/tri-state (R4). -/
def tTS : Nat := 200
/-- `T_RW`, reset pulse width (R4). -/
def tRW : Nat := 500
/-- `T_RB`, post-reset recovery (R4). -/
def tRB : Nat := 100

/-- Nanoseconds in a second. -/
def nsPerSecond : Nat := 1000000000

/-- `ceil(t * F_CTRL / 10^9)`, the controller clock periods that `t` ns take, rounded up to whole ones (R90). -/
def ceilPeriods (p : Params) (t : Nat) : Nat :=
  t * p.fCtrl / nsPerSecond + (if t * p.fCtrl % nsPerSecond = 0 then 0 else 1)

/-- `N(t) = max(1, ceil(t * F_CTRL / 10^9))` controller clock periods (R90). -/
def waitPeriods (p : Params) (t : Nat) : Nat := max 1 (ceilPeriods p t)

end Sys2Proof.Machine
end

