-- ==== Sys2Proof/Machine/Params.lean ====
section
/-! DEFINITION. What is computed from the open parameters: the divider (41_clock.md R105), the band test (R101), the
codes of the chip types (10_state.md R16), the classification (42_identification.md R124), and the constraints of
00_scope.md R6 on the parameters. -/

namespace Sys2Proof

/-- The 4-bit code of a chip type (table of R16). -/
def ChipType.code : ChipType → BitVec 4
  | .notFound => 0#4
  | .badOrUnknown => 1#4
  | .compatible => 2#4
  | .ay38910A => 3#4
  | .ay38912A => 4#4
  | .ay38913A => 5#4
  | .ay8930 => 6#4
  | .ym2149F => 7#4
  | .emulatorFirmware => 8#4

/-- `CLK_DIVIDER(f)` (R5, R105): the value listed for `f`, and the default `F_OSC div f` where none is (log entry 6). -/
def Params.divider (p : Params) (f : Nat) : Nat :=
  (p.dividers.lookup f).getD (p.fOsc / f)

/-- The frequency achieved for a request: `F_OSC div CLK_DIVIDER(f)`, fraction dropped (R105). -/
def Params.achieved (p : Params) (f : Nat) : Nat := p.fOsc / p.divider f

/-- The band test (R101): both ends belong to the band. -/
abbrev Params.InBand (p : Params) (f : Nat) : Prop := p.clkMin ≤ f ∧ f ≤ p.clkMax

/-- `Classify(h)` (R124): the table's type for `h`, `BadOrUnknown` where it has none. -/
def Params.classify (p : Params) (h : Word) : ChipType :=
  (p.sigTable.lookup h).getD .badOrUnknown

/-- `H_ABSENT` (R125): the hash of 94 reads of 0xFF. -/
def hAbsent : Word := 0xF040E3E7#32

/-- R6 on the clock band. That `CLK_MIN` is at least 1 is read from R102 ("`freq = 0` is out of band"), log entry 5. -/
abbrev Params.BandOk (p : Params) : Prop :=
  1 ≤ p.clkMin ∧ p.clkMin ≤ p.clkMax ∧ p.InBand p.defaultClock

/-- R5, R6 and R105 on the divider: for every frequency in the band the divider and the achieved frequency are at
least 1. That both fit their 32-bit registers is read from R14 and R15, log entry 5. -/
abbrev Params.DividerOk (p : Params) : Prop :=
  0 < p.fOsc ∧ ∀ f, f < p.clkMax + 1 → p.clkMin ≤ f →
    1 ≤ p.divider f ∧ p.divider f < 2 ^ 32 ∧ 1 ≤ p.achieved f ∧ p.achieved f < 2 ^ 32

/-- R5 and R6 on the probe parameters: the two register numbers differ, the select bytes have low nibble 0. -/
abbrev Params.ProbeOk (p : Params) : Prop :=
  p.regMixer ≠ p.regModeBank ∧ p.selBankA.extractLsb' 0 4 = 0#4 ∧ p.selBankB.extractLsb' 0 4 = 0#4

/-- R6 on the signature table: one entry per hash, none of `BadOrUnknown`, and `H_ABSENT` stands for `NotFound`. -/
abbrev Params.TableOk (p : Params) : Prop :=
  (p.sigTable.map Prod.fst).Nodup ∧ (∀ e ∈ p.sigTable, e.2 ≠ ChipType.badOrUnknown) ∧
    p.sigTable.lookup hAbsent = some ChipType.notFound

/-- The constraints on the open parameters (R5, R6). -/
abbrev Params.Valid (p : Params) : Prop :=
  p.BandOk ∧ p.DividerOk ∧ 0 < p.fCtrl ∧ p.ProbeOk ∧ p.TableOk

/-- The parameter values that 95_test_vectors.md uses for its vectors; they are no facts of the hardware. -/
def Params.vectors : Params where
  clkMin := 1000000
  clkMax := 2000000
  fOsc := 16000000
  dividers := []
  defaultClock := 1750000
  fCtrl := 16000000
  regMixer := 7
  regModeBank := 13
  probeBase0 := 0x00#8
  probeBase1 := 0x10#8
  selBankA := 0xA0#8
  selBankB := 0xB0#8
  sigTable :=
    [ (0xF040E3E7#32, .notFound), (0x09B25D27#32, .compatible),
      (0x08F30087#32, .ay38910A), (0xC55E56E7#32, .ym2149F) ]

/-- The parameters of the machine that State.reset describes: the unknown constant wherever it meets R6, and only
otherwise (where no hardware of this spec is described) a set that does (log entry 4). -/
def Machine.board : Params :=
  if Config.rawBoard.Valid then Config.rawBoard else Params.vectors

end Sys2Proof
end

