-- ==== Sys2Proof/Machine/State.lean ====
section
/-! DEFINITION. The state of the block (10_state.md R10, R31), the state after power-on reset (R30, R170), and the
reasons a step could stop. Plain data throughout. -/

namespace Sys2Proof.Machine

/-- The chip side of the bus, as far as the block can tell (20_memory.md R41 to R45): an oracle. It is the environment
of the block, not a part of it (R31); log entry 3. -/
inductive Psg where
  /-- No chip drives the bus: every read is 0xFF (R44). -/
  | absent
  /-- A chip. `answers` are bytes it is going to give to the next reads, in order; once they are used up, a read is a
  free value that may depend on `chip` (R43). -/
  | chip (chip : Nat) (answers : List Byte)
deriving DecidableEq, Repr

/-- The state. The fields down to `genCount` are the block's own (R10, R31); the rest are its ports, its trace, its
environment and its fixed parameters (INVENTORY.md, State). -/
structure State where
  /-- `RDATA`, `x[0]` (R11). -/
  rdata     : Byte
  /-- `HASH`, `x[1]` (R12). -/
  hash      : Word
  /-- `CTYPE`, `x[2]` (R13). -/
  ctype     : BitVec 4
  /-- `RCLOCK`, `x[3]`, Hz; 0 means that no clock is set (R14). -/
  rclock    : Word
  /-- `CLKDIV`, `x[4]` (R15). -/
  clkdiv    : Word
  /-- `PHASE`, `DOE`, `DOUT`, `RST` (R17 to R20). -/
  lines     : Lines
  /-- `CLKEN` (R23). -/
  clken     : Bool
  /-- `IDDONE` (R26). -/
  iddone    : Bool
  /-- `BUSY` (R28). -/
  busy      : Bool
  /-- `SEQ` (R22). -/
  seq       : Nat
  /-- The wait timer (R31 (b)): the periods of the wait in progress still to be counted. -/
  waitTimer : Nat
  /-- The clock generator's running count (R31 (c), R161 (a)). -/
  genCount  : Nat
  /-- The command words the host is still going to issue, next first (log entry 2). -/
  host      : List Word
  /-- The response words given so far, oldest first (R60, R64). -/
  responses : List Word
  /-- The bus trace, oldest first (R93). -/
  trace     : List TraceItem
  /-- What is on the chip side of the bus. -/
  psg       : Psg
  /-- The model's own counter of steps, which the free values are applied to (log entries 3, 11). -/
  moment    : Nat
  /-- The open parameters (R5, R32); no step changes them. -/
  board     : Params
deriving DecidableEq, Repr

/-- Why a step could stop with a fault: never. "The block raises no exception, ever" (60_exceptions.md R150), and a
violated timing floor (93 U1) cannot arise because every wait lasts at least its floor. So no constructor; safe. -/
inductive Fault where
deriving DecidableEq, Repr

/-- Why a step could be refused. -/
inductive Refusal where
  /-- Raised by an arm of exec for a command without a meaning, by its mnemonic: safe. No arm raises it now. -/
  | notModelled (mnemonic : String)
deriving DecidableEq, Repr

/-- A machine at the end of power-on reset (R30, R170): lines at rest, no clock, not identified, not busy; the values
R30 leaves unspecified, the parameters and the chip side are arguments. -/
def State.powerOn (p : Params) (v : PowerOnValues) (psg : Psg) : State where
  rdata := v.rdata
  hash := v.hash
  ctype := v.ctype
  rclock := 0
  clkdiv := v.clkdiv
  lines := { phase := .idle, doe := false, dout := v.dout, rst := false }
  clken := false
  iddone := false
  busy := false
  seq := v.seq.val
  waitTimer := 0
  genCount := v.genCount
  host := []
  responses := []
  trace := []
  psg := psg
  moment := 0
  board := p

/-- The machine right after reset (R30, R170); the arguments of `powerOn` are constants without a known value (log entries
4, 7, 8). -/
def State.reset : State :=
  State.powerOn Sys2Proof.Machine.board Config.powerOnValues (.chip Config.chip [])

end Sys2Proof.Machine
end

