-- ==== Sys2Proof/Machine/Flags.lean ====
section
/-! DEFINITION. The flags (10_state.md section 4): the derived ones, and the two updates of `IDDONE`. There are no condition
codes (R33). -/

namespace Sys2Proof.Machine

/-- `READY` (R27): identified, and neither `NotFound` nor `BadOrUnknown`. -/
def ready (s : State) : Bool :=
  s.iddone && !(s.ctype == ChipType.notFound.code) && !(s.ctype == ChipType.badOrUnknown.code)

/-- `CLKSET` (R33): a clock is set. -/
def clkset (s : State) : Bool := !(s.rclock == 0)

/-- `IDDONE <- 0` at the start of an identification run (R26, R120). -/
def clearIddone (s : State) : State := { s with iddone := false }

/-- `IDDONE <- 1` at its end (R26, R120). -/
def setIddone (s : State) : State := { s with iddone := true }

end Sys2Proof.Machine
end

