-- ==== Sys2Proof/Machine/Operands.lean ====
section
/-! DEFINITION. The operands the block works out for itself: the bytes and addresses of the identification sweeps
(42_identification.md R113 to R119), and the widening of a flag or register to a response word (30_encoding.md R67). The
operands of the commands are fields of Instr, cut out of the word by the decoder (R65, R66). -/

namespace Sys2Proof.Machine

/-- `Pattern(i)` (R113): by the position in the sweep, not by the address. -/
def pattern (p : Params) (i : Fin 16) : Byte :=
  if i = p.regMixer then 0x3F#8 else if i = p.regModeBank then 0x0F#8 else 0xFF#8

/-- `(base + i) mod 256` (R114, R116). -/
def sweepAddr (base : Byte) (i : Fin 16) : Byte := base + BitVec.ofNat 8 i.val

/-- A register number 0 to 15 as an address byte, with no base offset (R118). -/
def regAddr (i : Fin 16) : Byte := BitVec.ofNat 8 i.val

/-- The positions of a 16-register sweep, ascending (R114). -/
def sweep : List (Fin 16) := List.finRange 16

/-- The fifteen positions without `REG_MODE_BANK`, ascending (R118; `e(0)..e(14)` of R121). -/
def extSweep (p : Params) : List (Fin 16) := sweep.filter (fun i => i ≠ p.regModeBank)

/-- The bank-select byte written: `sel | 0x0F` (R118). -/
def bankSelect (sel : Byte) : Byte := sel ||| 0x0F#8

/-- The response `zext_32(b)` of `READ` (R67). -/
def byteResponse (b : Byte) : Word := b.setWidth 32

/-- The response `{27'b0, IDDONE, CTYPE}` of `GETTYPE` (R144). -/
def typeResponse (iddone : Bool) (ctype : BitVec 4) : Word :=
  0#27 ++ BitVec.ofBool iddone ++ ctype

/-- The response `zext_32(READY)` of `ISREADY` (R145). -/
def flagResponse (b : Bool) : Word := (BitVec.ofBool b).setWidth 32

end Sys2Proof.Machine
end

