-- ==== Sys2Proof/Machine/Ops.lean ====
section
/-! DEFINITION. The primitives of 00_scope.md R8 and the four bus cycles (40_bus_cycles.md R82, R84, R86, R88), said once;
the handshake of the command port (30_encoding.md R60, R61, R64); what the outside world can do between commands. There is
no exception to take and none to return from (60_exceptions.md R158, R159). -/

namespace Sys2Proof.Machine

/-- `Set(...)` (R8): one line event; `l` is the line state with the named fields changed. -/
def setLines (l : Lines) (s : State) : State :=
  { s with lines := l, trace := s.trace ++ [.set l] }

/-- `Set(DOUT <- b, DOE <- 1)` (R82, R84 step 1). -/
def drive (b : Byte) (s : State) : State :=
  setLines { s.lines with dout := b, doe := true } s

/-- `Set(PHASE <- ph)`. -/
def setPhase (ph : Phase) (s : State) : State :=
  setLines { s.lines with phase := ph } s

/-- `Set(DOE <- 0)` (R82, R84 step 7). -/
def release (s : State) : State :=
  setLines { s.lines with doe := false } s

/-- `Set(RST <- r)` (R88). -/
def setRst (r : Bool) (s : State) : State :=
  setLines { s.lines with rst := r } s

/-- `Set(PHASE <- IDLE, DOE <- 0)` (R88 step 1, and the bus setup of R141). -/
def busSetup (s : State) : State :=
  setLines { s.lines with phase := .idle, doe := false } s

/-- The wait timer is loaded with `N(t)` (R90). -/
def loadTimer (t : Nat) (s : State) : State :=
  { s with waitTimer := waitPeriods s.board t }

/-- The wait timer has counted its load out: the wait is recorded and the timer stands at 0 (R90, R93). -/
def endWait (t : Nat) (s : State) : State :=
  { s with waitTimer := 0, trace := s.trace ++ [.wait t s.waitTimer] }

/-- `Wait(t)` (R8, R90): the lines do not change for at least `t` ns. -/
def wait (t : Nat) (s : State) : State := endWait t (loadTimer t s)

/-- What the clock output carries (41_clock.md R104): nothing while `CLKEN = 0`, otherwise a signal whose period is `CLKDIV`
periods of `F_OSC`, given as the pair of `F_OSC` and `CLKDIV`. Its waveform is not in the spec (U9). -/
def clockOutput (s : State) : Option (Nat × Nat) :=
  if s.clken then some (s.board.fOsc, s.clkdiv.toNat) else none

/-- `PsgRead()` (R43): 0xFF with no chip (R44); otherwise the chip's next answer, a free value where none is listed (log
entry 3). -/
def psgRead (s : State) : Byte :=
  match s.psg with
  | .absent => 0xFF#8
  | .chip _ (b :: _) => b
  | .chip c [] => Config.psgByte c s.moment (clockOutput s) (s.trace.map TraceItem.seen)

/-- The chip side after one answer was taken. -/
def Psg.answered : Psg → Psg
  | .absent => .absent
  | .chip c answers => .chip c answers.tail

/-- `DBUS()` (R24): the byte driven by the controller, or by the chip in the read phase, or the pull-ups. -/
def dbus (s : State) : Byte :=
  if s.lines.doe then s.lines.dout
  else if s.lines.phase = .read then psgRead s
  else 0xFF#8

/-- Whether `DBUS()` is the chip's answer, which is then used up (R24). -/
def chipAsked (s : State) : Bool := !s.lines.doe && decide (s.lines.phase = .read)

/-- `RDATA <- DBUS()` (R86 step 3), the sample. -/
def sampleBus (s : State) : State :=
  { s with rdata := dbus s, psg := if chipAsked s then s.psg.answered else s.psg,
           trace := s.trace ++ [.sample (dbus s)] }

/-- `BusAddr(a)` (R82). -/
def busAddr (a : Byte) (s : State) : State :=
  release <| wait tAH <| setPhase .idle <| wait tAS <| setPhase .addr <| wait 0 <| drive a s

/-- `BusWrite(d)` (R84). -/
def busWrite (d : Byte) (s : State) : State :=
  release <| wait tDH <| setPhase .idle <| wait tDW <| setPhase .write <| wait 0 <| drive d s

/-- `BusRead()` (R86); the byte it returns is `RDATA` of the state it leaves. -/
def busRead (s : State) : State :=
  wait tTS <| setPhase .idle <| sampleBus <| wait tDA <| setPhase .read s

/-- `BusReset()` (R88). -/
def busReset (s : State) : State :=
  wait tRB <| setRst false <| wait tRW <| setRst true <| busSetup s

/-- `MemWrite(addr, 1, v)` (R9). -/
def memWrite (a v : Byte) (s : State) : State := busWrite v (busAddr a s)

/-- `MemRead(addr, 1)` (R9). -/
def memRead (a : Byte) (s : State) : State := busRead (busAddr a s)

/-- The host's next command word is accepted: `BUSY` is set (R61). -/
def accept (rest : List Word) (s : State) : State :=
  { s with host := rest, busy := true }

/-- `respond(v)` (R64): the response is given and the command ends, which clears `BUSY` (R28, R61). -/
def respond (v : Word) (s : State) : State :=
  { s with responses := s.responses ++ [v], busy := false }

/-- A command word with a reserved `op` (R68): no state change, no line event, response 0. -/
def reservedCommand (s : State) : State := respond 0 s

/-- Time has passed: the free-running generator stands at some count below `CLKDIV` while it is enabled (R100, R161 (a)), and
the moment is another one. A free value, log entry 11. -/
def elapse (s : State) : State :=
  { s with
    genCount := if s.clken then Config.oscCount s.moment % s.clkdiv.toNat else s.genCount
    moment := s.moment + 1 }

/-- `elapse` after a meaning that gave a next state. -/
def elapseAfter : Host.Outcome State Fault Refusal → Host.Outcome State Fault Refusal
  | .next t => .next (elapse t)
  | .fault r => .fault r
  | .refused r => .refused r

/-- The host issues its commands: they come after those it was already going to issue (R60, log entry 2). -/
def issue (ws : List Word) (s : State) : State := { s with host := s.host ++ ws }

/-- From outside: the chip side is changed between commands (R185). The block notices nothing. -/
def attach (psg : Psg) (s : State) : State := { s with psg := psg }

/-- From outside: the controller is powered on again, or its reset input is released. Of the block's own state nothing
survives (R170, R171). That everything outside the block is as it was is the model's choice, log entry 21: the host's words,
the responses it was given, the chip's answers still to come and all the chip has seen, to which the initial line state and
the stopped clock are added. -/
def powerCycle (v : PowerOnValues) (s : State) : State :=
  { State.powerOn s.board v s.psg with
    host := s.host
    responses := s.responses
    moment := s.moment + 1
    trace := s.trace ++ [.set (Lines.rest v.dout), .clock none] }

end Sys2Proof.Machine
end

