-- ==== Sys2Proof/Machine/BusCycles.lean ====
section
/-! DEFINITION. The commands that run one bus cycle each: `RESET`, `ADDR`, `WRITE`, `READ` (40_bus_cycles.md). -/

namespace Sys2Proof.Machine

/-- `RESET` (R89). No result register and no flag is written. -/
def execReset (s : State) : Host.Outcome State Fault Refusal :=
  .next (respond 0 (busReset s))

/-- `ADDR reg` (R83). The byte is sent as it is; there is no range check (R40). -/
def execAddr (reg : Byte) (s : State) : Host.Outcome State Fault Refusal :=
  .next (respond 0 (busAddr reg s))

/-- `WRITE data` (R85). -/
def execWrite (data : Byte) (s : State) : Host.Outcome State Fault Refusal :=
  .next (respond 0 (busWrite data s))

/-- `READ` (R87): `b <- BusRead(); respond(zext_32(b))`. -/
def execRead (s : State) : Host.Outcome State Fault Refusal :=
  .next (respond (byteResponse (busRead s).rdata) (busRead s))

end Sys2Proof.Machine
end

