-- ==== Sys2Proof/Machine/Clock.lean ====
section
/-! DEFINITION. The clock generator and its commands `SETCLK`, `GETCLK` (41_clock.md). -/

namespace Sys2Proof.Machine

/-- The generator is configured for a request `f` (R105): `CLKDIV`, `RCLOCK` and `CLKEN` are written together. The trace
records what the clock output then carries (log entry 9); this is no line event (R102). -/
def configureClock (f : Nat) (s : State) : State :=
  { s with
    clkdiv := BitVec.ofNat 32 (s.board.divider f)
    rclock := BitVec.ofNat 32 (s.board.achieved f)
    clken := true
    trace := s.trace ++ [.clock (some (s.board.fOsc, (BitVec.ofNat 32 (s.board.divider f)).toNat))] }

/-- The effect of `SETCLK` before its response (R102): nothing at all for a request outside the band (R153). -/
def setClock (freq : Word) (s : State) : State :=
  if s.board.InBand freq.toNat then configureClock freq.toNat s else s

/-- `SETCLK freq` (R102). -/
def execSetclk (freq : Word) (s : State) : Host.Outcome State Fault Refusal :=
  .next (respond 0 (setClock freq s))

/-- `GETCLK` (R103): the achieved frequency, 0 when none is set. -/
def execGetclk (s : State) : Host.Outcome State Fault Refusal :=
  .next (respond s.rclock s)

end Sys2Proof.Machine
end

