-- ==== Sys2Proof/Machine/Ident.lean ====
section
/-! DEFINITION. The identification sequencer and its command `IDENT` (42_identification.md). -/

namespace Sys2Proof.Machine

/-- The hash step on values (R111): `(31 * h + zext_32(b)) mod 2^32`. -/
def foldByte (h : Word) (b : Byte) : Word := 31#32 * h + b.setWidth 32

/-- `Fold(b)` with the byte just read (R111). -/
def foldHash (s : State) : State := { s with hash := foldByte s.hash s.rdata }

/-- The seed of a run (R112). -/
def hashSeed : Word := 7#32

/-- `HASH <- 7`, and the sequencer stands before cycle 0 (R112, R22). -/
def seedRun (s : State) : State := { s with hash := hashSeed, seq := 0 }

/-- `SEQ` advances by exactly 1 at the end of each bus cycle (R22). -/
def advanceSeq (s : State) : State := { s with seq := s.seq + 1 }

/-- A bus cycle of a run, in the notation of R121: `A(x)`, `W(x)`, and `R`, which is a read followed by the fold. -/
inductive Cycle where
  | a (x : Byte)
  | w (x : Byte)
  | r
deriving DecidableEq, Repr

/-- One bus cycle of a run. -/
def runCycle (c : Cycle) (s : State) : State :=
  match c with
  | .a x => advanceSeq (busAddr x s)
  | .w x => advanceSeq (busWrite x s)
  | .r => advanceSeq (foldHash (busRead s))

/-- Bus cycles one after the other. -/
def runCycles : List Cycle → State → State
  | [], s => s
  | c :: cs, s => runCycles cs (runCycle c s)

/-- `PlainProbe(base)` (R114): sixteen writes, then sixteen reads, each with its own address cycle. -/
def plainProbe (p : Params) (base : Byte) : List Cycle :=
  sweep.flatMap (fun i => [.a (sweepAddr base i), .w (pattern p i)]) ++
    sweep.flatMap (fun i => [.a (sweepAddr base i), .r])

/-- `LatchProbe(base)` (R116): write and read under one address cycle. -/
def latchProbe (p : Params) (base : Byte) : List Cycle :=
  sweep.flatMap (fun i => [.a (sweepAddr base i), .w (pattern p i), .r])

/-- `ExtProbe(sel)` (R118): the bank is selected, then the fifteen registers are written and read back. -/
def extProbe (p : Params) (sel : Byte) : List Cycle :=
  [.a (regAddr p.regModeBank), .w (bankSelect sel)] ++
    (extSweep p).flatMap (fun i => [.a (regAddr i), .w 0xFF#8]) ++
    (extSweep p).flatMap (fun i => [.a (regAddr i), .r])

/-- The bus cycles of a run, in order (R120, R121): fixed, with no branch on a byte read. -/
def identCycles (p : Params) : List Cycle :=
  plainProbe p p.probeBase0 ++ plainProbe p p.probeBase1 ++
    latchProbe p p.probeBase0 ++ latchProbe p p.probeBase1 ++
    extProbe p p.selBankA ++ extProbe p p.selBankB

/-- `CTYPE <- Classify(HASH)` (R124). -/
def classifyHash (s : State) : State := { s with ctype := (s.board.classify s.hash).code }

/-- An identification run: the body of `IDENT` (R120), which is also a step of `INIT` (R140). -/
def identify (s : State) : State :=
  setIddone <| classifyHash <| runCycles (identCycles s.board) <| seedRun <| clearIddone s

/-- `IDENT` (R120). -/
def execIdent (s : State) : Host.Outcome State Fault Refusal :=
  .next (respond 0 (identify s))

end Sys2Proof.Machine
end

