-- ==== Sys2Proof/Machine/Status.lean ====
section
/-! DEFINITION. `INIT` and the status reads `GETHASH`, `GETTYPE`, `ISREADY` (43_init_and_status.md). -/

namespace Sys2Proof.Machine

/-- "Default clock configuration if none set" (R142). -/
def defaultClock (s : State) : State :=
  if clkset s then s else configureClock s.board.defaultClock s

/-- The effect of `INIT` before its response (R140): reset, bus setup, identification, default clock, in this order. -/
def initialise (s : State) : State :=
  defaultClock <| identify <| busSetup <| busReset s

/-- `INIT` (R140). -/
def execInit (s : State) : Host.Outcome State Fault Refusal :=
  .next (respond 0 (initialise s))

/-- `GETHASH` (R143). -/
def execGethash (s : State) : Host.Outcome State Fault Refusal :=
  .next (respond s.hash s)

/-- `GETTYPE` (R144). -/
def execGettype (s : State) : Host.Outcome State Fault Refusal :=
  .next (respond (typeResponse s.iddone s.ctype) s)

/-- `ISREADY` (R145). -/
def execIsready (s : State) : Host.Outcome State Fault Refusal :=
  .next (respond (flagResponse (ready s)) s)

end Sys2Proof.Machine
end

