-- ==== Sys2Proof/Machine/Dispatch.lean ====
section
/-! DEFINITION. One arm per command (30_encoding.md R63), each a direct call of its meaning. -/

namespace Sys2Proof.Machine

def exec (i : Instr) (s : State) : Host.Outcome State Fault Refusal :=
  match i with
  | .reset => Sys2Proof.Machine.execReset s
  | .addr reg => Sys2Proof.Machine.execAddr reg s
  | .write data => Sys2Proof.Machine.execWrite data s
  | .read => Sys2Proof.Machine.execRead s
  | .setclk freq => Sys2Proof.Machine.execSetclk freq s
  | .getclk => Sys2Proof.Machine.execGetclk s
  | .ident => Sys2Proof.Machine.execIdent s
  | .init => Sys2Proof.Machine.execInit s
  | .gethash => Sys2Proof.Machine.execGethash s
  | .gettype => Sys2Proof.Machine.execGettype s
  | .isready => Sys2Proof.Machine.execIsready s

end Sys2Proof.Machine
end

