-- ==== Sys2Proof/Machine/Step.lean ====
section
/-! DEFINITION. One step: the host's next command, run from its acceptance to its response (92_eei_decisions.md D33; log
entries 1, 2, 12, 13). -/

namespace Sys2Proof.Machine

/-- One step. While `BUSY = 1` the port accepts nothing (30_encoding.md R61); with no command the block waits
(60_exceptions.md R165); a reserved word has the effect of R68; any other runs its command. -/
def step (s : State) : Host.Outcome State Fault Refusal :=
  match s.busy, s.host with
  | true, _ => .next (elapse s)
  | false, [] => .next (elapse s)
  | false, w :: rest =>
    match decode w with
    | .ok i => elapseAfter (exec i (accept rest s))
    | .error _ => .next (elapse (reservedCommand (accept rest s)))

/-- `s` with the given instruction as the host's next command, which the port is ready for. -/
def State.withFetchWord (s : State) (nbits w : Nat) : State :=
  { s with host := tableWord nbits w :: s.host.tail, busy := false }

end Sys2Proof.Machine
end

