-- ==== Sys2Proof/Machine/Trace.lean ====
section
/-! DEFINITION. Views of the bus trace: the segments and the trace lists of 40_bus_cycles.md R93, the events the chip sees
(20_memory.md R41, R42, R45), and minimum durations (R92, R188). Nothing here is run by a step. -/

namespace Sys2Proof.Machine

/-- The item a `Wait(t)` leaves in the trace (R90). -/
def waitItem (p : Params) (t : Nat) : TraceItem := .wait t (waitPeriods p t)

/-- A line event that leaves the lines at phase `ph`, output enable `doe`, data `d`, reset `rst`. -/
def setItem (ph : Phase) (doe : Bool) (d : Byte) (rst : Bool) : TraceItem :=
  .set { phase := ph, doe := doe, dout := d, rst := rst }

/-- The trace of `BusAddr(a)` from lines at rest (R82, worked example of R83). -/
def addrTrace (p : Params) (a : Byte) : List TraceItem :=
  [ setItem .idle true a false, waitItem p 0, setItem .addr true a false, waitItem p 400,
    setItem .idle true a false, waitItem p 100, setItem .idle false a false ]

/-- The trace of `BusWrite(d)` from lines at rest (R84, worked example of R85). -/
def writeTrace (p : Params) (d : Byte) : List TraceItem :=
  [ setItem .idle true d false, waitItem p 0, setItem .write true d false, waitItem p 500,
    setItem .idle true d false, waitItem p 100, setItem .idle false d false ]

/-- The trace of `BusRead()` from lines at rest with `DOUT = d`, sampling `b` (R86, worked example of R87). -/
def readTrace (p : Params) (d b : Byte) : List TraceItem :=
  [ setItem .read false d false, waitItem p 500, .sample b, setItem .idle false d false, waitItem p 200 ]

/-- The trace of `BusReset()` from lines at rest with `DOUT = d` (R88, worked example of R89). -/
def resetTrace (p : Params) (d : Byte) : List TraceItem :=
  [ setItem .idle false d false, setItem .idle false d true, waitItem p 500,
    setItem .idle false d false, waitItem p 100 ]

/-- The byte left in `DOUT` by a list of cycles: the last one driven (R19). -/
def lastDriven : Byte → List Cycle → Byte
  | d, [] => d
  | _, .a x :: cs => lastDriven x cs
  | _, .w x :: cs => lastDriven x cs
  | d, .r :: cs => lastDriven d cs

/-- How many reads a list of cycles has. -/
def readCount : List Cycle → Nat
  | [] => 0
  | .a _ :: cs => readCount cs
  | .w _ :: cs => readCount cs
  | .r :: cs => readCount cs + 1

/-- The trace of a list of cycles from lines at rest with `DOUT = d`, its reads sampling the listed bytes in order. -/
def cyclesTrace (p : Params) : Byte → List Cycle → List Byte → List TraceItem
  | _, [], _ => []
  | _, .a x :: cs, bs => addrTrace p x ++ cyclesTrace p x cs bs
  | _, .w x :: cs, bs => writeTrace p x ++ cyclesTrace p x cs bs
  | d, .r :: cs, b :: bs => readTrace p d b ++ cyclesTrace p d cs bs
  | d, .r :: cs, [] => cyclesTrace p d cs []

/-- The chip side after `n` answers were taken. -/
def Psg.answeredTimes : Nat → Psg → Psg
  | 0, e => e
  | n + 1, e => Psg.answeredTimes n e.answered

/-- The bytes `bs` are ones the chip side gives to as many reads (R43, R44): all 0xFF with no chip; with a chip they agree with
its listed answers for as long as both last. -/
def Psg.Gives (e : Psg) (bs : List Byte) : Prop :=
  match e with
  | .absent => ∀ b ∈ bs, b = 0xFF#8
  | .chip _ answers => answers.take bs.length = bs.take answers.length

/-- The next `n` reads are settled without a free value: no chip (R44), or as many answers listed. -/
def Psg.Settled (n : Nat) : Psg → Prop
  | .absent => True
  | .chip _ answers => n ≤ answers.length

/-- The line events of a trace (glossary: changes of `PHASE`, `DOE`, `DOUT` or `RST`). -/
def lineEvents : List TraceItem → List Lines
  | [] => []
  | .set l :: rest => l :: lineEvents rest
  | .wait _ _ :: rest => lineEvents rest
  | .sample _ :: rest => lineEvents rest
  | .clock _ :: rest => lineEvents rest

/-- The bytes sampled in a trace, in order. -/
def samples : List TraceItem → List Byte
  | [] => []
  | .set _ :: rest => samples rest
  | .wait _ _ :: rest => samples rest
  | .sample b :: rest => b :: samples rest
  | .clock _ :: rest => samples rest

/-- The minimum duration of a trace in ns: the sum of the floors of its waits (R92). -/
def minDuration : List TraceItem → Nat
  | [] => 0
  | .set _ :: rest => minDuration rest
  | .wait t _ :: rest => t + minDuration rest
  | .sample _ :: rest => minDuration rest
  | .clock _ :: rest => minDuration rest

/-- A segment (R93): the state the lines are held in, and the minimum time they are. -/
structure Segment where
  lines : Lines
  time  : Nat
deriving DecidableEq, Repr

/-- The segments of a trace that starts with the lines at `l`, held for `t` ns already. -/
def segments (l : Lines) (t : Nat) : List TraceItem → List Segment
  | [] => [⟨l, t⟩]
  | .set l' :: rest => if l' = l then segments l t rest else ⟨l, t⟩ :: segments l' 0 rest
  | .wait f _ :: rest => segments l (t + f) rest
  | .sample _ :: rest => segments l t rest
  | .clock _ :: rest => segments l t rest

/-- What the attached chip sees of the bus (20_memory.md section 2). -/
inductive PsgEvent where
  /-- `Psg.onAddr(a)` (R41). -/
  | onAddr (a : Byte)
  /-- `Psg.onWrite(d)` (R42). -/
  | onWrite (d : Byte)
  /-- The read phase, held long enough for the chip to answer (R43, R86). -/
  | onRead
  /-- `Psg.onReset()` (R45). -/
  | onReset
deriving DecidableEq, Repr

/-- The event that two successive segments make, if any (R41, R42, R43, R45; log entry 17). -/
def eventAt (x y : Segment) : List PsgEvent :=
  if x.lines.phase = .addr ∧ x.lines.doe = true ∧ tAS ≤ x.time ∧
      y.lines.phase = .idle ∧ y.lines.doe = true ∧ y.lines.dout = x.lines.dout ∧ tAH ≤ y.time then
    [.onAddr x.lines.dout]
  else if x.lines.phase = .write ∧ x.lines.doe = true ∧ tDW ≤ x.time ∧
      y.lines.phase = .idle ∧ y.lines.doe = true ∧ y.lines.dout = x.lines.dout ∧ tDH ≤ y.time then
    [.onWrite x.lines.dout]
  else if x.lines.phase = .read ∧ x.lines.doe = false ∧ tDA ≤ x.time ∧
      y.lines.phase = .idle ∧ y.lines.doe = false ∧ tTS ≤ y.time then
    [.onRead]
  else if x.lines.rst = true ∧ tRW ≤ x.time ∧ y.lines.rst = false ∧ tRB ≤ y.time then
    [.onReset]
  else []

/-- The events of a list of segments. -/
def segmentEvents : List Segment → List PsgEvent
  | [] => []
  | [_] => []
  | x :: y :: rest => eventAt x y ++ segmentEvents (y :: rest)

/-- What the chip sees of a trace that starts with the lines at `l`. -/
def psgEvents (l : Lines) (tr : List TraceItem) : List PsgEvent := segmentEvents (segments l 0 tr)

/-- `e(j)` of R121: the fifteen numbers 0 to 15 without `REG_MODE_BANK`, ascending. -/
def extReg (p : Params) (j : Nat) : Byte :=
  BitVec.ofNat 8 (if j < p.regModeBank.val then j else j + 1)

/-- `P(i)` of R121. -/
def patternAt (p : Params) (i : Nat) : Byte :=
  if i = p.regMixer.val then 0x3F#8 else if i = p.regModeBank.val then 0x0F#8 else 0xFF#8

/-- The table of R121, row by row: the bus cycle at position `k` of a run. -/
def seqTable (p : Params) (k : Nat) : Cycle :=
  let at0 (i : Nat) : Byte := p.probeBase0 + BitVec.ofNat 8 i
  let at1 (i : Nat) : Byte := p.probeBase1 + BitVec.ofNat 8 i
  if k < 32 then
    if k % 2 = 0 then .a (at0 (k / 2)) else .w (patternAt p (k / 2))
  else if k < 64 then
    if (k - 32) % 2 = 0 then .a (at0 ((k - 32) / 2)) else .r
  else if k < 96 then
    if (k - 64) % 2 = 0 then .a (at1 ((k - 64) / 2)) else .w (patternAt p ((k - 64) / 2))
  else if k < 128 then
    if (k - 96) % 2 = 0 then .a (at1 ((k - 96) / 2)) else .r
  else if k < 176 then
    if (k - 128) % 3 = 0 then .a (at0 ((k - 128) / 3))
    else if (k - 128) % 3 = 1 then .w (patternAt p ((k - 128) / 3)) else .r
  else if k < 224 then
    if (k - 176) % 3 = 0 then .a (at1 ((k - 176) / 3))
    else if (k - 176) % 3 = 1 then .w (patternAt p ((k - 176) / 3)) else .r
  else if k = 224 then .a (BitVec.ofNat 8 p.regModeBank.val)
  else if k = 225 then .w (p.selBankA + 0x0F#8)
  else if k < 256 then
    if (k - 226) % 2 = 0 then .a (extReg p ((k - 226) / 2)) else .w 0xFF#8
  else if k < 286 then
    if (k - 256) % 2 = 0 then .a (extReg p ((k - 256) / 2)) else .r
  else if k = 286 then .a (BitVec.ofNat 8 p.regModeBank.val)
  else if k = 287 then .w (p.selBankB + 0x0F#8)
  else if k < 318 then
    if (k - 288) % 2 = 0 then .a (extReg p ((k - 288) / 2)) else .w 0xFF#8
  else
    if (k - 318) % 2 = 0 then .a (extReg p ((k - 318) / 2)) else .r

/-- What the chip sees of a cycle. -/
def Cycle.event : Cycle → PsgEvent
  | .a x => .onAddr x
  | .w x => .onWrite x
  | .r => .onRead

end Sys2Proof.Machine
end

