-- ==== Sys2Proof/Safety.lean ====
section
/-! DEFINITION. What a safe machine is: the line-state invariants of 10_state.md R25, the floors of 40_bus_cycles.md R90 and
R91, and the invariant of the whole state that every step keeps. -/

namespace Sys2Proof.Machine

/-- R25 (a) to (c), at one instant: the controller does not drive in the read phase; reset is asserted only on an idle,
released bus; the address-latch and write phases are held only while the controller drives. -/
abbrev Lines.Safe (l : Lines) : Prop :=
  (l.phase = .read → l.doe = false) ∧
  (l.rst = true → l.phase = .idle ∧ l.doe = false) ∧
  (l.phase = .addr ∨ l.phase = .write → l.doe = true)

/-- The lines at rest (R81, R25 (d)). -/
abbrev Lines.AtRest (l : Lines) : Prop := l.phase = .idle ∧ l.doe = false ∧ l.rst = false

/-- A trace item keeps the rules: a line event leaves the lines safe (R25), a wait of `n` controller periods lasts at least
its floor of `t` ns (R90), where one period lasts `10^9 / F_CTRL` ns. -/
def TraceItem.Good (p : Params) : TraceItem → Prop
  | .set l => l.Safe
  | .wait t n => t * p.fCtrl ≤ n * 1000000000
  | .sample _ => True
  | .clock _ => True

/-- The command runs to the state `t` and adds `tr` to the bus trace. -/
abbrev Runs (i : Instr) (s t : State) (tr : List TraceItem) : Prop :=
  exec i s = .next t ∧ t.trace = s.trace ++ tr

/-- The invariant of the state. -/
structure Inv (s : State) : Prop where
  /-- The parameters meet R6. -/
  board   : s.board.Valid
  /-- R25 (a) to (c), now. -/
  safe    : s.lines.Safe
  /-- R25 (d): between commands the lines are at rest, and no wait is in progress. -/
  rest    : s.busy = false → s.lines.AtRest ∧ s.waitTimer = 0
  /-- R25 (a) to (c) and the floors of R90, at every earlier instant. -/
  trace   : ∀ x ∈ s.trace, x.Good s.board
  /-- R23: `CLKEN = 1` exactly when `RCLOCK != 0`. -/
  clock   : s.clken = true ↔ s.rclock ≠ 0
  /-- R105: a running generator has a divider of at least 1; R161 (a): it counts below it. -/
  divider : s.clken = true → s.genCount < s.clkdiv.toNat
  /-- R13, R26: `IDDONE` says that `CTYPE` is the classification of `HASH`. -/
  ident   : s.iddone = true → s.ctype = (s.board.classify s.hash).code
  /-- R22: `SEQ` is a number 0 to 348. -/
  seq     : s.seq ≤ 348

end Sys2Proof.Machine
end

