-- ==== Sys2Proof/Certificates/Slice0/Obligations.lean ====
section
/-! DEFINITION. The statements for the provers. Each docstring names the rules of spec/ it formalises; `Runs`, `Inv`,
`Lines.AtRest` and `Lines.Safe` are in Safety.lean, the views of the trace in Machine/Trace.lean. -/

open Sys2Proof Sys2Proof.Machine

/-! ## Encoding -/

/-- R63, R65, R66, R68 to R70: `op` alone decides, by `match` and `mask`; operands are cut out as the rules say; every
other bit of `arg` is ignored; every other word is rejected as reserved. -/
def Obligations.WordsDecodeByOpcode : Prop :=
  ∀ w : Word,
    (w &&& 0xF0000000#32 = 0x10000000#32 → decode w = .ok .reset) ∧
    (w &&& 0xF0000000#32 = 0x20000000#32 → decode w = .ok (.addr (w.extractLsb' 0 8))) ∧
    (w &&& 0xF0000000#32 = 0x30000000#32 → decode w = .ok (.write (w.extractLsb' 0 8))) ∧
    (w &&& 0xF0000000#32 = 0x40000000#32 → decode w = .ok .read) ∧
    (w &&& 0xF0000000#32 = 0x50000000#32 → decode w = .ok (.setclk (w &&& 0x0FFFFFFF#32))) ∧
    (w &&& 0xF0000000#32 = 0x60000000#32 → decode w = .ok .getclk) ∧
    (w &&& 0xF0000000#32 = 0x70000000#32 → decode w = .ok .ident) ∧
    (w &&& 0xF0000000#32 = 0x80000000#32 → decode w = .ok .init) ∧
    (w &&& 0xF0000000#32 = 0x90000000#32 → decode w = .ok .gethash) ∧
    (w &&& 0xF0000000#32 = 0xA0000000#32 → decode w = .ok .gettype) ∧
    (w &&& 0xF0000000#32 = 0xB0000000#32 → decode w = .ok .isready) ∧
    (w &&& 0xF0000000#32 ∈ [0x00000000#32, 0xC0000000#32, 0xD0000000#32, 0xE0000000#32, 0xF0000000#32] →
      decode w = .error (.reservedOp (w.extractLsb' 28 4)))

/-- Vectors V1 to V6 of 95_test_vectors.md: the words written out there are the commands they stand for. -/
def Obligations.VectorWordsDecode : Prop :=
  decode 0x10000000#32 = .ok .reset ∧ decode 0x20000007#32 = .ok (.addr 0x07#8) ∧
  decode 0x30000038#32 = .ok (.write 0x38#8) ∧ decode 0x40000000#32 = .ok .read ∧
  decode 0x501AB3F0#32 = .ok (.setclk 1750000#32) ∧ decode 0x60000000#32 = .ok .getclk ∧
  decode 0x70000000#32 = .ok .ident ∧ decode 0x80000000#32 = .ok .init ∧
  decode 0x90000000#32 = .ok .gethash ∧ decode 0xA0000000#32 = .ok .gettype ∧
  decode 0xB0000000#32 = .ok .isready ∧ decode 0x2ABCDE07#32 = .ok (.addr 0x07#8) ∧
  decode 0x3FFFFF38#32 = .ok (.write 0x38#8) ∧ decode 0x40123456#32 = .ok .read ∧
  decode 0x5FFFFFFF#32 = .ok (.setclk 268435455#32)

/-- R62 to R66, R69: the encoder and the decoder agree. Every well-formed command comes back from its word, with every
operand; and a word that decodes to a command is that command's word, up to the bits of `arg` the command does not use. -/
def Obligations.DecodeEncodeAgree : Prop :=
  (∀ i : Instr, i.wellFormed = true → decode (encode i) = .ok i) ∧
  (∀ (w : Word) (i : Instr), decode w = .ok i → i.wellFormed = true ∧ encode i = w &&& i.usedBits)

/-! ## The command port and the step -/

/-- When the port is ready and the host's next word decodes to a command, a step is exec of that command on the state with the
word accepted (R61), after which time has passed: the generator's count and the moment, log entry 11, are as written here. -/
def Obligations.StepRunsTheDecodedCommand : Prop :=
  ∀ (s : State) (w : Word) (rest : List Word) (i : Instr),
    s.busy = false → s.host = w :: rest → decode w = .ok i →
    ∃ t : State, exec i { s with host := rest, busy := true } = .next t ∧
      step s = .next { t with
        genCount := if t.clken = true then Config.oscCount t.moment % t.clkdiv.toNat else t.genCount
        moment := t.moment + 1 }

/-- R68: a command whose `op` is reserved changes no state, produces no line event and responds 0. (The free-running
generator's count and the model's moment, `g` and `m`, are not the command's doing: log entry 11.) -/
def Obligations.ReservedWordsOnlyAnswerZero : Prop :=
  ∀ (s : State) (w : Word) (rest : List Word),
    s.busy = false → s.host = w :: rest →
    w.extractLsb' 28 4 ∈ [0x0#4, 0xC#4, 0xD#4, 0xE#4, 0xF#4] →
    ∃ g m : Nat, step s = .next { s with
      host := rest, responses := s.responses ++ [0#32], genCount := g, moment := m }

/-- R61, R180: while `BUSY = 1` no command is accepted and nothing changes (but the generator's count and the moment). The
choice to let such a step pass is log entry 12. -/
def Obligations.BusyPortAcceptsNothing : Prop :=
  ∀ s : State, s.busy = true →
    ∃ g m : Nat, step s = .next { s with genCount := g, moment := m }

/-- R165, R110, R170: the block does nothing by itself. However many steps pass without a command, no line event occurs and
nothing changes but the generator's count and the moment, log entry 11. -/
def Obligations.NothingHappensWithoutACommand : Prop :=
  ∀ (n : Nat) (s : State), s.host = [] →
    ∃ g m : Nat, Host.Core.run Sys2Proof.core n s = .next { s with genCount := g, moment := m }

/-- R150, R190: no command can fault, be refused or fail to respond, in any state, however many steps are run. -/
def Obligations.NoRunEverStops : Prop :=
  ∀ (n : Nat) (s : State), ∃ t : State, Host.Core.run Sys2Proof.core n s = .next t

/-- R60: every command produces exactly one response, and it ends the command (R64). -/
def Obligations.EachCommandAnswersOnce : Prop :=
  ∀ (i : Instr) (s : State), ∃ (t : State) (v : Word),
    exec i s = .next t ∧ t.responses = s.responses ++ [v] ∧ t.busy = false ∧ t.host = s.host

/-- R60, R61: a host that issues any words at all, reserved ones too, gets one response for each, in as many steps, and the
responses given before stay in front of them. -/
def Obligations.EveryIssuedWordIsAnswered : Prop :=
  ∀ s : State, s.busy = false →
    ∃ (t : State) (vs : List Word), Host.Core.run Sys2Proof.core s.host.length s = .next t ∧
      t.host = [] ∧ t.busy = false ∧ t.responses = s.responses ++ vs ∧ vs.length = s.host.length

/-- R67: the response word of each command, the reserved words among them. -/
def Obligations.ResponseWords : Prop :=
  ∀ s : State,
    (∀ i : Instr, i = .reset ∨ (∃ a, i = .addr a) ∨ (∃ d, i = .write d) ∨ (∃ f, i = .setclk f) ∨ i = .ident ∨ i = .init →
      ∃ t, exec i s = .next t ∧ t.responses = s.responses ++ [0x00000000#32]) ∧
    (∃ t, exec .read s = .next t ∧ t.responses = s.responses ++ [0#24 ++ t.rdata]) ∧
    (∃ t, exec .getclk s = .next t ∧ t.responses = s.responses ++ [s.rclock]) ∧
    (∃ t, exec .gethash s = .next t ∧ t.responses = s.responses ++ [s.hash]) ∧
    (∃ t v, exec .gettype s = .next t ∧ t.responses = s.responses ++ [v] ∧
      v.extractLsb' 0 4 = s.ctype ∧ v.getLsbD 4 = s.iddone ∧ v.extractLsb' 5 27 = 0#27) ∧
    (∃ t v, exec .isready s = .next t ∧ t.responses = s.responses ++ [v] ∧
      v.getLsbD 0 = ready s ∧ v.extractLsb' 1 31 = 0#31) ∧
    (∀ (w : Word) (rest : List Word), s.busy = false → s.host = w :: rest →
      w.extractLsb' 28 4 ∈ [0x0#4, 0xC#4, 0xD#4, 0xE#4, 0xF#4] →
      ∃ t, step s = .next t ∧ t.responses = s.responses ++ [0x00000000#32])

/-! ## Reset of the controller -/

/-- R30: the state at the end of power-on reset, whatever the parameters, the chip side and the values R30 leaves unspecified:
each of those is exactly the argument, so a statement about all of them assumes none. State.reset is such a state. -/
def Obligations.PowerOnState : Prop :=
  (∀ (p : Params) (v : PowerOnValues) (e : Psg),
    let s := State.powerOn p v e
    s.lines.phase = .idle ∧ s.lines.doe = false ∧ s.lines.rst = false ∧ s.clken = false ∧ s.rclock = 0 ∧
    s.iddone = false ∧ s.busy = false ∧ ready s = false ∧
    s.lines.dout = v.dout ∧ s.clkdiv = v.clkdiv ∧ s.rdata = v.rdata ∧ s.hash = v.hash ∧ s.ctype = v.ctype ∧
    s.seq = v.seq.val) ∧
  State.reset.lines.AtRest ∧ State.reset.clken = false ∧ State.reset.rclock = 0 ∧ State.reset.iddone = false ∧
  State.reset.busy = false ∧ ready State.reset = false

/-! ## Bus cycles -/

/-- R88, R89: `RESET` from lines at rest. The whole next state is given: no register and no flag is written. -/
def Obligations.ResetPulsesTheResetLine : Prop :=
  encode .reset = 0x10000000#32 ∧
  ∀ s : State, s.lines.AtRest →
    exec .reset s = .next { s with
      waitTimer := 0
      trace := s.trace ++
        [ .set { s.lines with phase := .idle, doe := false }, .set { s.lines with rst := true },
          .wait 500 (waitPeriods s.board 500), .set { s.lines with rst := false },
          .wait 100 (waitPeriods s.board 100) ]
      responses := s.responses ++ [0#32]
      busy := false }

/-- R82, R83: `ADDR reg` from lines at rest, for every byte. -/
def Obligations.AddrRunsAnAddressCycle : Prop :=
  ∀ reg : Byte, encode (.addr reg) = 0x20000000#32 ||| reg.setWidth 32 ∧
  ∀ s : State, s.lines.AtRest →
    exec (.addr reg) s = .next { s with
      lines := { s.lines with dout := reg }
      waitTimer := 0
      trace := s.trace ++
        [ .set { s.lines with dout := reg, doe := true }, .wait 0 (waitPeriods s.board 0),
          .set { s.lines with dout := reg, doe := true, phase := .addr }, .wait 400 (waitPeriods s.board 400),
          .set { s.lines with dout := reg, doe := true, phase := .idle }, .wait 100 (waitPeriods s.board 100),
          .set { s.lines with dout := reg, doe := false, phase := .idle } ]
      responses := s.responses ++ [0#32]
      busy := false }

/-- R84, R85: `WRITE data` from lines at rest, for every byte. -/
def Obligations.WriteRunsAWriteCycle : Prop :=
  ∀ data : Byte, encode (.write data) = 0x30000000#32 ||| data.setWidth 32 ∧
  ∀ s : State, s.lines.AtRest →
    exec (.write data) s = .next { s with
      lines := { s.lines with dout := data }
      waitTimer := 0
      trace := s.trace ++
        [ .set { s.lines with dout := data, doe := true }, .wait 0 (waitPeriods s.board 0),
          .set { s.lines with dout := data, doe := true, phase := .write }, .wait 500 (waitPeriods s.board 500),
          .set { s.lines with dout := data, doe := true, phase := .idle }, .wait 100 (waitPeriods s.board 100),
          .set { s.lines with dout := data, doe := false, phase := .idle } ]
      responses := s.responses ++ [0#32]
      busy := false }

/-- R86, R87: `READ` from lines at rest. Some byte is sampled in the read phase; it goes to `RDATA` and, zero-extended, to the
response. With no chip it is 0xFF (R44); where the chip side lists its next answer it is that byte, which is then used up: the
model's form of the oracle, log entry 3. -/
def Obligations.ReadSamplesOneByte : Prop :=
  encode .read = 0x40000000#32 ∧
  ∀ s : State, s.lines.AtRest → ∃ b : Byte,
    (s.psg = .absent → b = 0xFF#8) ∧
    (∀ c x xs, s.psg = .chip c (x :: xs) → b = x) ∧
    exec .read s = .next { s with
      rdata := b
      waitTimer := 0
      psg := s.psg.answered
      trace := s.trace ++
        [ .set { s.lines with phase := .read }, .wait 500 (waitPeriods s.board 500), .sample b,
          .set { s.lines with phase := .idle }, .wait 200 (waitPeriods s.board 200) ]
      responses := s.responses ++ [b.setWidth 32]
      busy := false }

/-- R41, R42, R43, R45: what the chip sees of each bus command: exactly one event of its kind, with the command's byte.
That an event is read off the segments is log entry 17. -/
def Obligations.ChipSeesEachBusCommand : Prop :=
  ∀ s : State, s.lines.AtRest →
    (∀ a, ∃ t tr, Runs (.addr a) s t tr ∧ psgEvents s.lines tr = [.onAddr a]) ∧
    (∀ d, ∃ t tr, Runs (.write d) s t tr ∧ psgEvents s.lines tr = [.onWrite d]) ∧
    (∃ t tr, Runs .read s t tr ∧ psgEvents s.lines tr = [.onRead]) ∧
    (∃ t tr, Runs .reset s t tr ∧ psgEvents s.lines tr = [.onReset])

/-- R93: the segments of what each bus command adds to the trace: each line state with the minimum time it is held. -/
def Obligations.SegmentsOfTheBusCycles : Prop :=
  ∀ s : State, s.lines.AtRest →
    (∀ a : Byte, ∃ t tr, Runs (.addr a) s t tr ∧ (segments s.lines 0 tr).tail =
      [⟨⟨.idle, true, a, false⟩, 0⟩, ⟨⟨.addr, true, a, false⟩, 400⟩, ⟨⟨.idle, true, a, false⟩, 100⟩,
       ⟨⟨.idle, false, a, false⟩, 0⟩]) ∧
    (∀ d : Byte, ∃ t tr, Runs (.write d) s t tr ∧ (segments s.lines 0 tr).tail =
      [⟨⟨.idle, true, d, false⟩, 0⟩, ⟨⟨.write, true, d, false⟩, 500⟩, ⟨⟨.idle, true, d, false⟩, 100⟩,
       ⟨⟨.idle, false, d, false⟩, 0⟩]) ∧
    (∃ t tr, Runs .read s t tr ∧ (segments s.lines 0 tr).tail =
      [⟨⟨.read, false, s.lines.dout, false⟩, 500⟩, ⟨⟨.idle, false, s.lines.dout, false⟩, 200⟩]) ∧
    (∃ t tr, Runs .reset s t tr ∧ (segments s.lines 0 tr).tail =
      [⟨⟨.idle, false, s.lines.dout, true⟩, 500⟩, ⟨⟨.idle, false, s.lines.dout, false⟩, 100⟩])

/-- R25, R81: from lines at rest, every command leaves the lines at rest, and at every instant of it the controller does not
drive in the read phase, asserts reset only on a released idle bus, and latches or writes only while it drives. -/
def Obligations.LinesStaySafeInEveryCommand : Prop :=
  ∀ (i : Instr) (s : State), s.lines.AtRest → ∃ t tr, Runs i s t tr ∧ t.lines.AtRest ∧
    ∀ l ∈ lineEvents tr,
      (l.phase = .read → l.doe = false) ∧
      (l.rst = true → l.phase = .idle ∧ l.doe = false) ∧
      (l.phase = .addr ∨ l.phase = .write → l.doe = true)

/-- R90: `N(t)` is the least number of controller clock periods, at least one, that last at least `t` ns; a wait of `t` is
counted out in `N(t)` periods, changes no line and leaves the timer at 0. -/
def Obligations.WaitLastsAtLeastItsFloor : Prop :=
  (∀ (p : Params) (t : Nat), 0 < p.fCtrl →
    1 ≤ waitPeriods p t ∧ t * p.fCtrl ≤ waitPeriods p t * 1000000000 ∧
    ∀ n, 1 ≤ n → t * p.fCtrl ≤ n * 1000000000 → waitPeriods p t ≤ n) ∧
  ∀ (s : State) (t : Nat),
    wait t s = { s with waitTimer := 0, trace := s.trace ++ [.wait t (waitPeriods s.board t)] }

/-- R80, R91, R178: every wait that any command makes lasts at least its floor. -/
def Obligations.NoCommandViolatesAFloor : Prop :=
  ∀ (i : Instr) (s : State), ∃ t tr, Runs i s t tr ∧
    ∀ f n, TraceItem.wait f n ∈ tr → f * s.board.fCtrl ≤ n * 1000000000

/-- R188 (with R92, R122): the minimum duration of every command, in ns, and of the pseudo-commands `WRREG` and `RDREG`. -/
def Obligations.MinimumDurations : Prop :=
  ∀ s : State, s.lines.AtRest →
    (∀ i : Instr, ∃ t tr, Runs i s t tr ∧ minDuration tr =
      match i with
      | .addr _ => 500
      | .write _ => 600
      | .read => 700
      | .reset => 600
      | .ident => 202400
      | .init => 203000
      | .setclk _ => 0
      | .getclk => 0
      | .gethash => 0
      | .gettype => 0
      | .isready => 0) ∧
    (∀ r b, ∃ t u tr tr', Runs (.addr r) s t tr ∧ Runs (.write b) t u tr' ∧ minDuration (tr ++ tr') = 1100) ∧
    (∀ r, ∃ t u tr tr', Runs (.addr r) s t tr ∧ Runs .read t u tr' ∧ minDuration (tr ++ tr') = 1200)

/-- R72, R9: the pseudo-commands `WRREG r, b` and `RDREG r`, issued by the host, take two steps and get two responses; the chip
sees the address and then the write or the read. -/
def Obligations.PseudoCommandsAreTwoCommands : Prop :=
  ∀ (s : State) (r b : Byte), s.busy = false → s.lines.AtRest →
    (s.host = (Pseudo.wrreg r b).expand.map encode →
      ∃ t tr, Host.Core.run Sys2Proof.core 2 s = .next t ∧ t.host = [] ∧ t.responses = s.responses ++ [0, 0] ∧
        t.trace = s.trace ++ tr ∧ psgEvents s.lines tr = [.onAddr r, .onWrite b]) ∧
    (s.host = (Pseudo.rdreg r).expand.map encode →
      ∃ t tr, Host.Core.run Sys2Proof.core 2 s = .next t ∧ t.host = [] ∧
        t.responses = s.responses ++ [0, t.rdata.setWidth 32] ∧
        t.trace = s.trace ++ tr ∧ psgEvents s.lines tr = [.onAddr r, .onRead])

/-! ## Clock generation -/

/-- R101, R102, R153: `SETCLK` configures the generator for a frequency in the band, both ends included, and does nothing at
all for any other; it makes no line event and answers 0 either way. What the clock output then carries
is recorded in the trace, a change of `CLKEN` with it (10_state.md section 3); the form of that item is log entry 9. That a divider beyond 32 bits, which
no board of log entry 5 has, is narrowed is log entry 16. -/
def Obligations.SetclkConfiguresOnlyInBand : Prop :=
  ∀ (s : State) (freq : Word),
    (freq.toNat < 2 ^ 28 → encode (.setclk freq) = 0x50000000#32 ||| freq) ∧
    (s.board.clkMin ≤ freq.toNat ∧ freq.toNat ≤ s.board.clkMax →
      exec (.setclk freq) s = .next { s with
        clkdiv := BitVec.ofNat 32 (s.board.divider freq.toNat)
        rclock := BitVec.ofNat 32 (s.board.fOsc / s.board.divider freq.toNat)
        clken := true
        trace := s.trace ++ [.clock (some (s.board.fOsc, (BitVec.ofNat 32 (s.board.divider freq.toNat)).toNat))]
        responses := s.responses ++ [0#32]
        busy := false }) ∧
    (freq.toNat < s.board.clkMin ∨ s.board.clkMax < freq.toNat →
      exec (.setclk freq) s = .next { s with responses := s.responses ++ [0#32], busy := false })

/-- R105 under the constraints of R6: for a request in the band the divider and the achieved frequency are exact and at least
1, so that a configured generator never reads as "none set"; with the default divider the achieved frequency is never below
the request. That both fit 32 bits rests on log entry 5. -/
def Obligations.AchievedClockIsExactAndNonzero : Prop :=
  ∀ (s : State) (freq : Word), s.board.Valid → s.board.InBand freq.toNat →
    ∃ t, exec (.setclk freq) s = .next t ∧
      t.clkdiv.toNat = s.board.divider freq.toNat ∧ 1 ≤ t.clkdiv.toNat ∧
      t.rclock.toNat = s.board.fOsc / s.board.divider freq.toNat ∧ 1 ≤ t.rclock.toNat ∧ t.clken = true ∧
      (s.board.dividers = [] → t.clkdiv.toNat = s.board.fOsc / freq.toNat ∧ freq.toNat ≤ t.rclock.toNat)

/-- R100, R23: no command but `SETCLK` and `INIT` changes the clock generator, and nothing ever stops it. -/
def Obligations.OnlySetclkAndInitTouchTheClock : Prop :=
  ∀ (i : Instr) (s : State), ∃ t, exec i s = .next t ∧
    ((∀ f, i ≠ .setclk f) → i ≠ .init → t.clken = s.clken ∧ t.rclock = s.rclock ∧ t.clkdiv = s.clkdiv) ∧
    (s.clken = true → t.clken = true)

/-- R106: no bus cycle depends on the clock generator, or touches it. `RESET`, `ADDR` and `WRITE` do the same whatever it is
doing. So do `READ` and `IDENT` where the chip side settles every read; where it does not, the byte read is the chip's matter
(R182), but the line events, the time waited and the lines left are the same all the same. -/
def Obligations.BusIgnoresTheClock : Prop :=
  ∀ (i : Instr) (s : State) (rc cd : Word) (en : Bool) (g : Nat),
    (i = .reset ∨ (∃ a, i = .addr a) ∨ (∃ d, i = .write d) ∨ (i = .read ∧ s.psg.Settled 1) ∨
        (i = .ident ∧ s.psg.Settled 94) →
      ∃ t, exec i s = .next t ∧
        exec i { s with rclock := rc, clkdiv := cd, clken := en, genCount := g } =
          .next { t with rclock := rc, clkdiv := cd, clken := en, genCount := g }) ∧
    (i = .read ∨ i = .ident →
      ∃ t t', exec i s = .next t ∧
        exec i { s with rclock := rc, clkdiv := cd, clken := en, genCount := g } = .next t' ∧
        t'.rclock = rc ∧ t'.clkdiv = cd ∧ t'.clken = en ∧ t'.genCount = g ∧ t'.lines = t.lines ∧
        lineEvents t'.trace = lineEvents t.trace ∧ minDuration t'.trace = minDuration t.trace)

/-! ## Status reads -/

/-- R103, R143, R144, R145: the four reads answer the register or flag and change nothing else. `READY` is spelled out as R27
has it. -/
def Obligations.StatusReadsChangeNothing : Prop :=
  encode .getclk = 0x60000000#32 ∧ encode .gethash = 0x90000000#32 ∧
  encode .gettype = 0xA0000000#32 ∧ encode .isready = 0xB0000000#32 ∧
  ∀ s : State,
    exec .getclk s = .next { s with responses := s.responses ++ [s.rclock], busy := false } ∧
    exec .gethash s = .next { s with responses := s.responses ++ [s.hash], busy := false } ∧
    exec .gettype s = .next { s with
      responses := s.responses ++ [(if s.iddone = true then 0x10#32 else 0#32) + s.ctype.setWidth 32], busy := false } ∧
    exec .isready s = .next { s with
      responses := s.responses ++ [if s.iddone = true ∧ s.ctype ≠ 0#4 ∧ s.ctype ≠ 1#4 then 1#32 else 0#32], busy := false }

/-- R16: nine types, their codes exactly 0 to 8, no two alike. -/
def Obligations.ChipTypeCodes : Prop :=
  ChipType.notFound.code = 0 ∧ ChipType.badOrUnknown.code = 1 ∧ ChipType.compatible.code = 2 ∧
  ChipType.ay38910A.code = 3 ∧ ChipType.ay38912A.code = 4 ∧ ChipType.ay38913A.code = 5 ∧
  ChipType.ay8930.code = 6 ∧ ChipType.ym2149F.code = 7 ∧ ChipType.emulatorFirmware.code = 8 ∧
  (∀ x y : ChipType, x.code = y.code → x = y) ∧ ∀ c : BitVec 4, c.toNat ≤ 8 ↔ ∃ x : ChipType, x.code = c

/-! ## Identification -/

/-- R111: `Fold` is `31 * HASH + byte` modulo 2^32, byte unsigned; for a fixed byte it is a bijection of the hashes, for a fixed
hash it tells the bytes apart (93 U6). -/
def Obligations.FoldArithmetic : Prop :=
  (∀ (h : Word) (b : Byte), (foldByte h b).toNat = (31 * h.toNat + b.toNat) % 2 ^ 32) ∧
  (∀ b : Byte, Function.Bijective (fun h => foldByte h b)) ∧
  (∀ h : Word, Function.Injective (foldByte h))

/-- R125 and vector V30: the hash of 94 bytes 0xFF from the seed, and the one of 96 that the rule names as the alternative. -/
def Obligations.AbsentHashValue : Prop :=
  (List.replicate 94 0xFF#8).foldl foldByte 7#32 = 0xF040E3E7#32 ∧
  (List.replicate 96 0xFF#8).foldl foldByte 7#32 = 0xE397A607#32

/-- R113: the test pattern. -/
def Obligations.TestPattern : Prop :=
  ∀ (p : Params) (i : Fin 16),
    (i = p.regMixer → pattern p i = 0x3F#8) ∧
    (i ≠ p.regMixer → i = p.regModeBank → pattern p i = 0x0F#8) ∧
    (i ≠ p.regMixer → i ≠ p.regModeBank → pattern p i = 0xFF#8)

/-- R121: the cycles of a run are those of the table, position by position, for every parameter set that meets R6 (the table
writes `SEL + 0x0F`, which equals `SEL | 0x0F` because the low nibble of a select byte is 0). -/
def Obligations.RunFollowsTheSequenceTable : Prop :=
  ∀ p : Params, p.ProbeOk →
    (identCycles p).length = 348 ∧ ∀ k, k < 348 → (identCycles p)[k]? = some (seqTable p k)

/-- R122: 158 address cycles, 96 write cycles and 94 read cycles, 348 in all, whatever the parameters; 32, 32 and 30 of the
reads are those of the three kinds of probe; the waits of the run add up to 202,400 ns. -/
def Obligations.RunCounts : Prop :=
  ∀ p : Params,
    ((identCycles p).filter (fun c => match c with | .a _ => true | .w _ => false | .r => false)).length = 158 ∧
    ((identCycles p).filter (fun c => match c with | .a _ => false | .w _ => true | .r => false)).length = 96 ∧
    readCount (identCycles p) = 94 ∧ (identCycles p).length = 348 ∧
    readCount (plainProbe p p.probeBase0 ++ plainProbe p p.probeBase1) = 32 ∧
    readCount (latchProbe p p.probeBase0 ++ latchProbe p p.probeBase1) = 32 ∧
    readCount (extProbe p p.selBankA ++ extProbe p p.selBankB) = 30 ∧
    ∀ (d : Byte) (bs : List Byte), bs.length = 94 →
      minDuration (cyclesTrace p d (identCycles p) bs) = 158 * 500 + 96 * 600 + 94 * 700

/-- R120: `IDENT` from lines at rest. 94 bytes are read, such as the chip side gives; `HASH` is their fold from the seed,
`CTYPE` its classification, `RDATA` the last byte, `SEQ` 348; the trace is the one the 348 cycles prescribe, and nothing else
changes. `psg` is the model's form of the oracle, log entry 3; that `SEQ` keeps its last value is log entry 14. -/
def Obligations.IdentRunsTheSequence : Prop :=
  encode .ident = 0x70000000#32 ∧
  ∀ s : State, s.lines.AtRest → ∃ bs : List Byte, bs.length = 94 ∧ s.psg.Gives bs ∧
    exec .ident s = .next { s with
      rdata := bs.getLast?.getD s.rdata
      hash := bs.foldl foldByte 7#32
      ctype := (s.board.classify (bs.foldl foldByte 7#32)).code
      iddone := true
      busy := false
      seq := 348
      waitTimer := 0
      lines := { s.lines with dout := lastDriven s.lines.dout (identCycles s.board) }
      trace := s.trace ++ cyclesTrace s.board s.lines.dout (identCycles s.board) bs
      psg := s.psg.answeredTimes 94
      responses := s.responses ++ [0#32] }

/-- R127: `HASH` is a function of the 94 bytes sampled and of nothing else, in every state whatever: not of the old hash, the
history, the clock or the parameters. -/
def Obligations.HashIsAFunctionOfTheBytesRead : Prop :=
  ∀ s : State, ∃ t tr, Runs .ident s t tr ∧ (samples tr).length = 94 ∧
    t.hash = (samples tr).foldl (fun h b => 31#32 * h + b.setWidth 32) 7#32

/-- R127: a chip that answers a second run as it answered the first gives the same hash and the same type, whatever else
differs between the two states. -/
def Obligations.SameAnswersGiveTheSameHash : Prop :=
  ∀ (s s' : State) (c c' : Nat) (answers rest rest' : List Byte),
    s.lines.AtRest → s'.lines.AtRest → s.board = s'.board → answers.length = 94 →
    s.psg = .chip c (answers ++ rest) → s'.psg = .chip c' (answers ++ rest') →
    ∃ t t', exec .ident s = .next t ∧ exec .ident s' = .next t' ∧ t.hash = t'.hash ∧ t.ctype = t'.ctype ∧
      t.psg = .chip c rest ∧ t'.psg = .chip c' rest'

/-- R44, R125, R151: with no chip a run ends with `HASH = H_ABSENT`, `CTYPE = NotFound`, `IDDONE = 1`, `READY = 0` and
`RDATA = 0xFF`, for every parameter set that meets R6. -/
def Obligations.AbsentChipIsNotFound : Prop :=
  ∀ s : State, s.lines.AtRest → s.board.Valid → s.psg = .absent →
    ∃ t, exec .ident s = .next t ∧ t.hash = 0xF040E3E7#32 ∧ t.ctype = ChipType.notFound.code ∧
      t.iddone = true ∧ ready t = false ∧ t.rdata = 0xFF#8

/-- R124, with R151, R152 and R27: after an `IDENT` or an `INIT`, `CTYPE` is the table's entry for `HASH`, or `BadOrUnknown`
where there is none, and `READY` is 0 exactly for `NotFound` and `BadOrUnknown`. In every state. -/
def Obligations.ClassificationIsATableLookup : Prop :=
  ∀ (s : State) (i : Instr), i = .ident ∨ i = .init → ∃ t, exec i s = .next t ∧ t.iddone = true ∧
    (∀ ty, s.board.sigTable.lookup t.hash = some ty →
      t.ctype = ty.code ∧ (ready t = true ↔ ty ≠ .notFound ∧ ty ≠ .badOrUnknown)) ∧
    (s.board.sigTable.lookup t.hash = none → t.ctype = ChipType.badOrUnknown.code ∧ ready t = false)

/-- R120, R121: what the chip sees of `IDENT` is exactly the events of the 348 cycles, in order; the reset line is not
touched; the reading of the events is log entry 17. -/
def Obligations.ChipSeesTheWholeRun : Prop :=
  ∀ s : State, s.lines.AtRest → ∃ t tr, Runs .ident s t tr ∧
    psgEvents s.lines tr = (identCycles s.board).map Cycle.event ∧
    (∀ l ∈ lineEvents tr, l.rst = false)

/-! ## INIT -/

/-- R140, R142: `INIT` from lines at rest: the reset cycle, the bus setup, the run, and the default clock only when none was
set, which the trace then records as after `SETCLK`. The whole next state is given, with the choices of log entries 3, 9, 14
and 16. -/
def Obligations.InitRunsItsFourSteps : Prop :=
  encode .init = 0x80000000#32 ∧
  ∀ s : State, s.lines.AtRest → ∃ bs : List Byte, bs.length = 94 ∧ s.psg.Gives bs ∧
    exec .init s = .next { s with
      rdata := bs.getLast?.getD s.rdata
      hash := bs.foldl foldByte 7#32
      ctype := (s.board.classify (bs.foldl foldByte 7#32)).code
      rclock := if s.rclock = 0 then BitVec.ofNat 32 (s.board.fOsc / s.board.divider s.board.defaultClock) else s.rclock
      clkdiv := if s.rclock = 0 then BitVec.ofNat 32 (s.board.divider s.board.defaultClock) else s.clkdiv
      clken := if s.rclock = 0 then true else s.clken
      iddone := true
      busy := false
      seq := 348
      waitTimer := 0
      lines := { s.lines with dout := lastDriven s.lines.dout (identCycles s.board) }
      trace := s.trace ++ resetTrace s.board s.lines.dout ++ [.set { s.lines with phase := .idle, doe := false }] ++
        cyclesTrace s.board s.lines.dout (identCycles s.board) bs ++
        (if s.rclock = 0 then
          [.clock (some (s.board.fOsc, (BitVec.ofNat 32 (s.board.divider s.board.defaultClock)).toNat))]
         else [])
      psg := s.psg.answeredTimes 94
      responses := s.responses ++ [0#32] }

/-- R175: what `INIT` guarantees at its response: the chip has seen one reset pulse followed by the 348 cycles, the
identification is done and holds the classification, and a clock is running. It rests on log entries 5 and 17. -/
def Obligations.InitGuarantees : Prop :=
  ∀ s : State, s.lines.AtRest → s.board.Valid → (s.clken = true ↔ s.rclock ≠ 0) →
    ∃ t tr, Runs .init s t tr ∧
      psgEvents s.lines tr = .onReset :: (identCycles s.board).map Cycle.event ∧
      t.iddone = true ∧ t.ctype = (s.board.classify t.hash).code ∧ t.rclock ≠ 0 ∧ t.clken = true

/-! ## Whole-machine rules -/

/-- R10 to R15, R23, R26 and the table of 10_state.md section 2: each register and flag changes only in the commands that its
rule names, in every state; the parameters and the host's words are changed by no command. That `SEQ` keeps its value outside
a run is log entry 14, that a command leaves the generator's count and the moment to the step is log entry 11, and the chip
side's answers are log entry 3. -/
def Obligations.RegistersChangeOnlyInTheirCommands : Prop :=
  ∀ (i : Instr) (s : State), ∃ t, exec i s = .next t ∧
    (i ≠ .ident → i ≠ .init → t.hash = s.hash ∧ t.ctype = s.ctype ∧ t.iddone = s.iddone ∧ t.seq = s.seq) ∧
    (i ≠ .read → i ≠ .ident → i ≠ .init → t.rdata = s.rdata ∧ t.psg = s.psg) ∧
    ((∀ f, i ≠ .setclk f) → i ≠ .init → t.rclock = s.rclock ∧ t.clkdiv = s.clkdiv ∧ t.clken = s.clken) ∧
    (i = .getclk ∨ i = .gethash ∨ i = .gettype ∨ i = .isready ∨ (∃ f, i = .setclk f) →
      t.lines = s.lines ∧ lineEvents t.trace = lineEvents s.trace) ∧
    t.board = s.board ∧ t.host = s.host ∧ t.genCount = s.genCount ∧ t.moment = s.moment

/-- R146: `READY` gates nothing. Whatever `CTYPE` and `IDDONE` are, the bus commands and `SETCLK` do the same and leave the
two as they were, and `IDENT` and `INIT` end in the very same state. That two reads on
machines the chip cannot tell apart give the same byte is log entry 3. -/
def Obligations.ReadyGatesNothing : Prop :=
  ∀ (i : Instr) (s : State) (ct : BitVec 4) (d : Bool), ∃ t, exec i s = .next t ∧
    (i = .reset ∨ (∃ a, i = .addr a) ∨ (∃ b, i = .write b) ∨ i = .read ∨ (∃ f, i = .setclk f) →
      exec i { s with ctype := ct, iddone := d } = .next { t with ctype := ct, iddone := d }) ∧
    (i = .ident ∨ i = .init → exec i { s with ctype := ct, iddone := d } = .next t)

/-- Every machine at the end of power-on reset meets the invariant, whatever R30 leaves unspecified, and so does
State.reset. -/
def Obligations.PowerOnMeetsTheInvariant : Prop :=
  (∀ (p : Params) (v : PowerOnValues) (e : Psg), p.Valid → Inv (State.powerOn p v e)) ∧ Inv State.reset

/-- R22, R23, R25, R26, R90, R105, R161: every step keeps the invariant, from every state that has it. -/
def Obligations.EveryStepKeepsTheInvariant : Prop :=
  ∀ s t : State, Inv s → step s = .next t → Inv t

/-- R19: what `DOUT` holds while `DOE = 0` has no effect on anything. Two states that differ only in an undriven `DOUT`, now or
at any earlier instant, do the same in every command: they end in states that differ in nothing else, so the same byte is
read and the same is answered. That the chip's answer is one function of what it can see is log entry 3. -/
def Obligations.UndrivenByteHasNoEffect : Prop :=
  ∀ (i : Instr) (s : State) (l : Lines) (past : List TraceItem),
    l.seen = s.lines.seen → past.map TraceItem.seen = s.trace.map TraceItem.seen →
    ∃ t t', exec i s = .next t ∧ exec i { s with lines := l, trace := past } = .next t' ∧
      t'.lines.seen = t.lines.seen ∧ t'.trace.map TraceItem.seen = t.trace.map TraceItem.seen ∧
      t' = { t with lines := t'.lines, trace := t'.trace }

/-- R170, R171: of the block's own state nothing survives a power cycle: two machines that agree in the
parameters and in what lies outside the block, its history included, are the same afterwards; and the invariant still holds.
That what lies outside the block is kept as it was is log entry 21. -/
def Obligations.PowerCycleForgetsTheBlock : Prop :=
  ∀ (v : PowerOnValues) (s : State),
    powerCycle v s = { State.powerOn s.board v s.psg with
      host := s.host
      responses := s.responses
      moment := s.moment + 1
      trace := s.trace ++ [.set { phase := .idle, doe := false, dout := v.dout, rst := false }, .clock none] } ∧
    (∀ s' : State, s'.board = s.board → s'.psg = s.psg → s'.host = s.host → s'.responses = s.responses →
      s'.moment = s.moment → s'.trace = s.trace → powerCycle v s' = powerCycle v s) ∧
    (Inv s → Inv (powerCycle v s))
end

