-- ==== Sys2Proof/Laws/State.lean ====
section
/-! SUPPORT. What each primitive update does to each field of State, one lemma per field per update, so that no later
proof unfolds a record update. -/

namespace Sys2Proof.Machine

section
variable (l : Lines) (s : State)

@[simp] theorem setLines_rdata : (setLines l s).rdata = s.rdata := rfl
@[simp] theorem setLines_hash : (setLines l s).hash = s.hash := rfl
@[simp] theorem setLines_ctype : (setLines l s).ctype = s.ctype := rfl
@[simp] theorem setLines_rclock : (setLines l s).rclock = s.rclock := rfl
@[simp] theorem setLines_clkdiv : (setLines l s).clkdiv = s.clkdiv := rfl
@[simp] theorem setLines_lines : (setLines l s).lines = l := rfl
@[simp] theorem setLines_clken : (setLines l s).clken = s.clken := rfl
@[simp] theorem setLines_iddone : (setLines l s).iddone = s.iddone := rfl
@[simp] theorem setLines_busy : (setLines l s).busy = s.busy := rfl
@[simp] theorem setLines_seq : (setLines l s).seq = s.seq := rfl
@[simp] theorem setLines_waitTimer : (setLines l s).waitTimer = s.waitTimer := rfl
@[simp] theorem setLines_genCount : (setLines l s).genCount = s.genCount := rfl
@[simp] theorem setLines_host : (setLines l s).host = s.host := rfl
@[simp] theorem setLines_responses : (setLines l s).responses = s.responses := rfl
@[simp] theorem setLines_trace : (setLines l s).trace = s.trace ++ [.set l] := rfl
@[simp] theorem setLines_psg : (setLines l s).psg = s.psg := rfl
@[simp] theorem setLines_moment : (setLines l s).moment = s.moment := rfl
@[simp] theorem setLines_board : (setLines l s).board = s.board := rfl

end

section
variable (t : Nat) (s : State)

@[simp] theorem loadTimer_rdata : (loadTimer t s).rdata = s.rdata := rfl
@[simp] theorem loadTimer_hash : (loadTimer t s).hash = s.hash := rfl
@[simp] theorem loadTimer_ctype : (loadTimer t s).ctype = s.ctype := rfl
@[simp] theorem loadTimer_rclock : (loadTimer t s).rclock = s.rclock := rfl
@[simp] theorem loadTimer_clkdiv : (loadTimer t s).clkdiv = s.clkdiv := rfl
@[simp] theorem loadTimer_lines : (loadTimer t s).lines = s.lines := rfl
@[simp] theorem loadTimer_clken : (loadTimer t s).clken = s.clken := rfl
@[simp] theorem loadTimer_iddone : (loadTimer t s).iddone = s.iddone := rfl
@[simp] theorem loadTimer_busy : (loadTimer t s).busy = s.busy := rfl
@[simp] theorem loadTimer_seq : (loadTimer t s).seq = s.seq := rfl
@[simp] theorem loadTimer_waitTimer : (loadTimer t s).waitTimer = waitPeriods s.board t := rfl
@[simp] theorem loadTimer_genCount : (loadTimer t s).genCount = s.genCount := rfl
@[simp] theorem loadTimer_host : (loadTimer t s).host = s.host := rfl
@[simp] theorem loadTimer_responses : (loadTimer t s).responses = s.responses := rfl
@[simp] theorem loadTimer_trace : (loadTimer t s).trace = s.trace := rfl
@[simp] theorem loadTimer_psg : (loadTimer t s).psg = s.psg := rfl
@[simp] theorem loadTimer_moment : (loadTimer t s).moment = s.moment := rfl
@[simp] theorem loadTimer_board : (loadTimer t s).board = s.board := rfl

end

section
variable (t : Nat) (s : State)

@[simp] theorem endWait_rdata : (endWait t s).rdata = s.rdata := rfl
@[simp] theorem endWait_hash : (endWait t s).hash = s.hash := rfl
@[simp] theorem endWait_ctype : (endWait t s).ctype = s.ctype := rfl
@[simp] theorem endWait_rclock : (endWait t s).rclock = s.rclock := rfl
@[simp] theorem endWait_clkdiv : (endWait t s).clkdiv = s.clkdiv := rfl
@[simp] theorem endWait_lines : (endWait t s).lines = s.lines := rfl
@[simp] theorem endWait_clken : (endWait t s).clken = s.clken := rfl
@[simp] theorem endWait_iddone : (endWait t s).iddone = s.iddone := rfl
@[simp] theorem endWait_busy : (endWait t s).busy = s.busy := rfl
@[simp] theorem endWait_seq : (endWait t s).seq = s.seq := rfl
@[simp] theorem endWait_waitTimer : (endWait t s).waitTimer = 0 := rfl
@[simp] theorem endWait_genCount : (endWait t s).genCount = s.genCount := rfl
@[simp] theorem endWait_host : (endWait t s).host = s.host := rfl
@[simp] theorem endWait_responses : (endWait t s).responses = s.responses := rfl
@[simp] theorem endWait_trace : (endWait t s).trace = s.trace ++ [.wait t s.waitTimer] := rfl
@[simp] theorem endWait_psg : (endWait t s).psg = s.psg := rfl
@[simp] theorem endWait_moment : (endWait t s).moment = s.moment := rfl
@[simp] theorem endWait_board : (endWait t s).board = s.board := rfl

end

section
variable (s : State)

@[simp] theorem sampleBus_rdata : (sampleBus s).rdata = dbus s := rfl
@[simp] theorem sampleBus_hash : (sampleBus s).hash = s.hash := rfl
@[simp] theorem sampleBus_ctype : (sampleBus s).ctype = s.ctype := rfl
@[simp] theorem sampleBus_rclock : (sampleBus s).rclock = s.rclock := rfl
@[simp] theorem sampleBus_clkdiv : (sampleBus s).clkdiv = s.clkdiv := rfl
@[simp] theorem sampleBus_lines : (sampleBus s).lines = s.lines := rfl
@[simp] theorem sampleBus_clken : (sampleBus s).clken = s.clken := rfl
@[simp] theorem sampleBus_iddone : (sampleBus s).iddone = s.iddone := rfl
@[simp] theorem sampleBus_busy : (sampleBus s).busy = s.busy := rfl
@[simp] theorem sampleBus_seq : (sampleBus s).seq = s.seq := rfl
@[simp] theorem sampleBus_waitTimer : (sampleBus s).waitTimer = s.waitTimer := rfl
@[simp] theorem sampleBus_genCount : (sampleBus s).genCount = s.genCount := rfl
@[simp] theorem sampleBus_host : (sampleBus s).host = s.host := rfl
@[simp] theorem sampleBus_responses : (sampleBus s).responses = s.responses := rfl
@[simp] theorem sampleBus_trace : (sampleBus s).trace = s.trace ++ [.sample (dbus s)] := rfl
@[simp] theorem sampleBus_psg : (sampleBus s).psg = if chipAsked s then s.psg.answered else s.psg := rfl
@[simp] theorem sampleBus_moment : (sampleBus s).moment = s.moment := rfl
@[simp] theorem sampleBus_board : (sampleBus s).board = s.board := rfl

end

section
variable (rest : List Word) (s : State)

@[simp] theorem accept_rdata : (accept rest s).rdata = s.rdata := rfl
@[simp] theorem accept_hash : (accept rest s).hash = s.hash := rfl
@[simp] theorem accept_ctype : (accept rest s).ctype = s.ctype := rfl
@[simp] theorem accept_rclock : (accept rest s).rclock = s.rclock := rfl
@[simp] theorem accept_clkdiv : (accept rest s).clkdiv = s.clkdiv := rfl
@[simp] theorem accept_lines : (accept rest s).lines = s.lines := rfl
@[simp] theorem accept_clken : (accept rest s).clken = s.clken := rfl
@[simp] theorem accept_iddone : (accept rest s).iddone = s.iddone := rfl
@[simp] theorem accept_busy : (accept rest s).busy = true := rfl
@[simp] theorem accept_seq : (accept rest s).seq = s.seq := rfl
@[simp] theorem accept_waitTimer : (accept rest s).waitTimer = s.waitTimer := rfl
@[simp] theorem accept_genCount : (accept rest s).genCount = s.genCount := rfl
@[simp] theorem accept_host : (accept rest s).host = rest := rfl
@[simp] theorem accept_responses : (accept rest s).responses = s.responses := rfl
@[simp] theorem accept_trace : (accept rest s).trace = s.trace := rfl
@[simp] theorem accept_psg : (accept rest s).psg = s.psg := rfl
@[simp] theorem accept_moment : (accept rest s).moment = s.moment := rfl
@[simp] theorem accept_board : (accept rest s).board = s.board := rfl

end

section
variable (v : Word) (s : State)

@[simp] theorem respond_rdata : (respond v s).rdata = s.rdata := rfl
@[simp] theorem respond_hash : (respond v s).hash = s.hash := rfl
@[simp] theorem respond_ctype : (respond v s).ctype = s.ctype := rfl
@[simp] theorem respond_rclock : (respond v s).rclock = s.rclock := rfl
@[simp] theorem respond_clkdiv : (respond v s).clkdiv = s.clkdiv := rfl
@[simp] theorem respond_lines : (respond v s).lines = s.lines := rfl
@[simp] theorem respond_clken : (respond v s).clken = s.clken := rfl
@[simp] theorem respond_iddone : (respond v s).iddone = s.iddone := rfl
@[simp] theorem respond_busy : (respond v s).busy = false := rfl
@[simp] theorem respond_seq : (respond v s).seq = s.seq := rfl
@[simp] theorem respond_waitTimer : (respond v s).waitTimer = s.waitTimer := rfl
@[simp] theorem respond_genCount : (respond v s).genCount = s.genCount := rfl
@[simp] theorem respond_host : (respond v s).host = s.host := rfl
@[simp] theorem respond_responses : (respond v s).responses = s.responses ++ [v] := rfl
@[simp] theorem respond_trace : (respond v s).trace = s.trace := rfl
@[simp] theorem respond_psg : (respond v s).psg = s.psg := rfl
@[simp] theorem respond_moment : (respond v s).moment = s.moment := rfl
@[simp] theorem respond_board : (respond v s).board = s.board := rfl

end

section
variable (s : State)

@[simp] theorem elapse_rdata : (elapse s).rdata = s.rdata := rfl
@[simp] theorem elapse_hash : (elapse s).hash = s.hash := rfl
@[simp] theorem elapse_ctype : (elapse s).ctype = s.ctype := rfl
@[simp] theorem elapse_rclock : (elapse s).rclock = s.rclock := rfl
@[simp] theorem elapse_clkdiv : (elapse s).clkdiv = s.clkdiv := rfl
@[simp] theorem elapse_lines : (elapse s).lines = s.lines := rfl
@[simp] theorem elapse_clken : (elapse s).clken = s.clken := rfl
@[simp] theorem elapse_iddone : (elapse s).iddone = s.iddone := rfl
@[simp] theorem elapse_busy : (elapse s).busy = s.busy := rfl
@[simp] theorem elapse_seq : (elapse s).seq = s.seq := rfl
@[simp] theorem elapse_waitTimer : (elapse s).waitTimer = s.waitTimer := rfl
@[simp] theorem elapse_genCount : (elapse s).genCount = if s.clken then Config.oscCount s.moment % s.clkdiv.toNat else s.genCount := rfl
@[simp] theorem elapse_host : (elapse s).host = s.host := rfl
@[simp] theorem elapse_responses : (elapse s).responses = s.responses := rfl
@[simp] theorem elapse_trace : (elapse s).trace = s.trace := rfl
@[simp] theorem elapse_psg : (elapse s).psg = s.psg := rfl
@[simp] theorem elapse_moment : (elapse s).moment = s.moment + 1 := rfl
@[simp] theorem elapse_board : (elapse s).board = s.board := rfl

end

section
variable (s : State)

@[simp] theorem clearIddone_rdata : (clearIddone s).rdata = s.rdata := rfl
@[simp] theorem clearIddone_hash : (clearIddone s).hash = s.hash := rfl
@[simp] theorem clearIddone_ctype : (clearIddone s).ctype = s.ctype := rfl
@[simp] theorem clearIddone_rclock : (clearIddone s).rclock = s.rclock := rfl
@[simp] theorem clearIddone_clkdiv : (clearIddone s).clkdiv = s.clkdiv := rfl
@[simp] theorem clearIddone_lines : (clearIddone s).lines = s.lines := rfl
@[simp] theorem clearIddone_clken : (clearIddone s).clken = s.clken := rfl
@[simp] theorem clearIddone_iddone : (clearIddone s).iddone = false := rfl
@[simp] theorem clearIddone_busy : (clearIddone s).busy = s.busy := rfl
@[simp] theorem clearIddone_seq : (clearIddone s).seq = s.seq := rfl
@[simp] theorem clearIddone_waitTimer : (clearIddone s).waitTimer = s.waitTimer := rfl
@[simp] theorem clearIddone_genCount : (clearIddone s).genCount = s.genCount := rfl
@[simp] theorem clearIddone_host : (clearIddone s).host = s.host := rfl
@[simp] theorem clearIddone_responses : (clearIddone s).responses = s.responses := rfl
@[simp] theorem clearIddone_trace : (clearIddone s).trace = s.trace := rfl
@[simp] theorem clearIddone_psg : (clearIddone s).psg = s.psg := rfl
@[simp] theorem clearIddone_moment : (clearIddone s).moment = s.moment := rfl
@[simp] theorem clearIddone_board : (clearIddone s).board = s.board := rfl

end

section
variable (s : State)

@[simp] theorem setIddone_rdata : (setIddone s).rdata = s.rdata := rfl
@[simp] theorem setIddone_hash : (setIddone s).hash = s.hash := rfl
@[simp] theorem setIddone_ctype : (setIddone s).ctype = s.ctype := rfl
@[simp] theorem setIddone_rclock : (setIddone s).rclock = s.rclock := rfl
@[simp] theorem setIddone_clkdiv : (setIddone s).clkdiv = s.clkdiv := rfl
@[simp] theorem setIddone_lines : (setIddone s).lines = s.lines := rfl
@[simp] theorem setIddone_clken : (setIddone s).clken = s.clken := rfl
@[simp] theorem setIddone_iddone : (setIddone s).iddone = true := rfl
@[simp] theorem setIddone_busy : (setIddone s).busy = s.busy := rfl
@[simp] theorem setIddone_seq : (setIddone s).seq = s.seq := rfl
@[simp] theorem setIddone_waitTimer : (setIddone s).waitTimer = s.waitTimer := rfl
@[simp] theorem setIddone_genCount : (setIddone s).genCount = s.genCount := rfl
@[simp] theorem setIddone_host : (setIddone s).host = s.host := rfl
@[simp] theorem setIddone_responses : (setIddone s).responses = s.responses := rfl
@[simp] theorem setIddone_trace : (setIddone s).trace = s.trace := rfl
@[simp] theorem setIddone_psg : (setIddone s).psg = s.psg := rfl
@[simp] theorem setIddone_moment : (setIddone s).moment = s.moment := rfl
@[simp] theorem setIddone_board : (setIddone s).board = s.board := rfl

end

section
variable (s : State)

@[simp] theorem seedRun_rdata : (seedRun s).rdata = s.rdata := rfl
@[simp] theorem seedRun_hash : (seedRun s).hash = hashSeed := rfl
@[simp] theorem seedRun_ctype : (seedRun s).ctype = s.ctype := rfl
@[simp] theorem seedRun_rclock : (seedRun s).rclock = s.rclock := rfl
@[simp] theorem seedRun_clkdiv : (seedRun s).clkdiv = s.clkdiv := rfl
@[simp] theorem seedRun_lines : (seedRun s).lines = s.lines := rfl
@[simp] theorem seedRun_clken : (seedRun s).clken = s.clken := rfl
@[simp] theorem seedRun_iddone : (seedRun s).iddone = s.iddone := rfl
@[simp] theorem seedRun_busy : (seedRun s).busy = s.busy := rfl
@[simp] theorem seedRun_seq : (seedRun s).seq = 0 := rfl
@[simp] theorem seedRun_waitTimer : (seedRun s).waitTimer = s.waitTimer := rfl
@[simp] theorem seedRun_genCount : (seedRun s).genCount = s.genCount := rfl
@[simp] theorem seedRun_host : (seedRun s).host = s.host := rfl
@[simp] theorem seedRun_responses : (seedRun s).responses = s.responses := rfl
@[simp] theorem seedRun_trace : (seedRun s).trace = s.trace := rfl
@[simp] theorem seedRun_psg : (seedRun s).psg = s.psg := rfl
@[simp] theorem seedRun_moment : (seedRun s).moment = s.moment := rfl
@[simp] theorem seedRun_board : (seedRun s).board = s.board := rfl

end

section
variable (s : State)

@[simp] theorem foldHash_rdata : (foldHash s).rdata = s.rdata := rfl
@[simp] theorem foldHash_hash : (foldHash s).hash = foldByte s.hash s.rdata := rfl
@[simp] theorem foldHash_ctype : (foldHash s).ctype = s.ctype := rfl
@[simp] theorem foldHash_rclock : (foldHash s).rclock = s.rclock := rfl
@[simp] theorem foldHash_clkdiv : (foldHash s).clkdiv = s.clkdiv := rfl
@[simp] theorem foldHash_lines : (foldHash s).lines = s.lines := rfl
@[simp] theorem foldHash_clken : (foldHash s).clken = s.clken := rfl
@[simp] theorem foldHash_iddone : (foldHash s).iddone = s.iddone := rfl
@[simp] theorem foldHash_busy : (foldHash s).busy = s.busy := rfl
@[simp] theorem foldHash_seq : (foldHash s).seq = s.seq := rfl
@[simp] theorem foldHash_waitTimer : (foldHash s).waitTimer = s.waitTimer := rfl
@[simp] theorem foldHash_genCount : (foldHash s).genCount = s.genCount := rfl
@[simp] theorem foldHash_host : (foldHash s).host = s.host := rfl
@[simp] theorem foldHash_responses : (foldHash s).responses = s.responses := rfl
@[simp] theorem foldHash_trace : (foldHash s).trace = s.trace := rfl
@[simp] theorem foldHash_psg : (foldHash s).psg = s.psg := rfl
@[simp] theorem foldHash_moment : (foldHash s).moment = s.moment := rfl
@[simp] theorem foldHash_board : (foldHash s).board = s.board := rfl

end

section
variable (s : State)

@[simp] theorem advanceSeq_rdata : (advanceSeq s).rdata = s.rdata := rfl
@[simp] theorem advanceSeq_hash : (advanceSeq s).hash = s.hash := rfl
@[simp] theorem advanceSeq_ctype : (advanceSeq s).ctype = s.ctype := rfl
@[simp] theorem advanceSeq_rclock : (advanceSeq s).rclock = s.rclock := rfl
@[simp] theorem advanceSeq_clkdiv : (advanceSeq s).clkdiv = s.clkdiv := rfl
@[simp] theorem advanceSeq_lines : (advanceSeq s).lines = s.lines := rfl
@[simp] theorem advanceSeq_clken : (advanceSeq s).clken = s.clken := rfl
@[simp] theorem advanceSeq_iddone : (advanceSeq s).iddone = s.iddone := rfl
@[simp] theorem advanceSeq_busy : (advanceSeq s).busy = s.busy := rfl
@[simp] theorem advanceSeq_seq : (advanceSeq s).seq = s.seq + 1 := rfl
@[simp] theorem advanceSeq_waitTimer : (advanceSeq s).waitTimer = s.waitTimer := rfl
@[simp] theorem advanceSeq_genCount : (advanceSeq s).genCount = s.genCount := rfl
@[simp] theorem advanceSeq_host : (advanceSeq s).host = s.host := rfl
@[simp] theorem advanceSeq_responses : (advanceSeq s).responses = s.responses := rfl
@[simp] theorem advanceSeq_trace : (advanceSeq s).trace = s.trace := rfl
@[simp] theorem advanceSeq_psg : (advanceSeq s).psg = s.psg := rfl
@[simp] theorem advanceSeq_moment : (advanceSeq s).moment = s.moment := rfl
@[simp] theorem advanceSeq_board : (advanceSeq s).board = s.board := rfl

end

section
variable (s : State)

@[simp] theorem classifyHash_rdata : (classifyHash s).rdata = s.rdata := rfl
@[simp] theorem classifyHash_hash : (classifyHash s).hash = s.hash := rfl
@[simp] theorem classifyHash_ctype : (classifyHash s).ctype = (s.board.classify s.hash).code := rfl
@[simp] theorem classifyHash_rclock : (classifyHash s).rclock = s.rclock := rfl
@[simp] theorem classifyHash_clkdiv : (classifyHash s).clkdiv = s.clkdiv := rfl
@[simp] theorem classifyHash_lines : (classifyHash s).lines = s.lines := rfl
@[simp] theorem classifyHash_clken : (classifyHash s).clken = s.clken := rfl
@[simp] theorem classifyHash_iddone : (classifyHash s).iddone = s.iddone := rfl
@[simp] theorem classifyHash_busy : (classifyHash s).busy = s.busy := rfl
@[simp] theorem classifyHash_seq : (classifyHash s).seq = s.seq := rfl
@[simp] theorem classifyHash_waitTimer : (classifyHash s).waitTimer = s.waitTimer := rfl
@[simp] theorem classifyHash_genCount : (classifyHash s).genCount = s.genCount := rfl
@[simp] theorem classifyHash_host : (classifyHash s).host = s.host := rfl
@[simp] theorem classifyHash_responses : (classifyHash s).responses = s.responses := rfl
@[simp] theorem classifyHash_trace : (classifyHash s).trace = s.trace := rfl
@[simp] theorem classifyHash_psg : (classifyHash s).psg = s.psg := rfl
@[simp] theorem classifyHash_moment : (classifyHash s).moment = s.moment := rfl
@[simp] theorem classifyHash_board : (classifyHash s).board = s.board := rfl

end

section
variable (f : Nat) (s : State)

@[simp] theorem configureClock_rdata : (configureClock f s).rdata = s.rdata := rfl
@[simp] theorem configureClock_hash : (configureClock f s).hash = s.hash := rfl
@[simp] theorem configureClock_ctype : (configureClock f s).ctype = s.ctype := rfl
@[simp] theorem configureClock_rclock : (configureClock f s).rclock = BitVec.ofNat 32 (s.board.achieved f) := rfl
@[simp] theorem configureClock_clkdiv : (configureClock f s).clkdiv = BitVec.ofNat 32 (s.board.divider f) := rfl
@[simp] theorem configureClock_lines : (configureClock f s).lines = s.lines := rfl
@[simp] theorem configureClock_clken : (configureClock f s).clken = true := rfl
@[simp] theorem configureClock_iddone : (configureClock f s).iddone = s.iddone := rfl
@[simp] theorem configureClock_busy : (configureClock f s).busy = s.busy := rfl
@[simp] theorem configureClock_seq : (configureClock f s).seq = s.seq := rfl
@[simp] theorem configureClock_waitTimer : (configureClock f s).waitTimer = s.waitTimer := rfl
@[simp] theorem configureClock_genCount : (configureClock f s).genCount = s.genCount := rfl
@[simp] theorem configureClock_host : (configureClock f s).host = s.host := rfl
@[simp] theorem configureClock_responses : (configureClock f s).responses = s.responses := rfl
@[simp] theorem configureClock_trace : (configureClock f s).trace =
    s.trace ++ [.clock (some (s.board.fOsc, (BitVec.ofNat 32 (s.board.divider f)).toNat))] := rfl
@[simp] theorem configureClock_psg : (configureClock f s).psg = s.psg := rfl
@[simp] theorem configureClock_moment : (configureClock f s).moment = s.moment := rfl
@[simp] theorem configureClock_board : (configureClock f s).board = s.board := rfl

end

section
variable (ws : List Word) (s : State)

@[simp] theorem issue_rdata : (issue ws s).rdata = s.rdata := rfl
@[simp] theorem issue_hash : (issue ws s).hash = s.hash := rfl
@[simp] theorem issue_ctype : (issue ws s).ctype = s.ctype := rfl
@[simp] theorem issue_rclock : (issue ws s).rclock = s.rclock := rfl
@[simp] theorem issue_clkdiv : (issue ws s).clkdiv = s.clkdiv := rfl
@[simp] theorem issue_lines : (issue ws s).lines = s.lines := rfl
@[simp] theorem issue_clken : (issue ws s).clken = s.clken := rfl
@[simp] theorem issue_iddone : (issue ws s).iddone = s.iddone := rfl
@[simp] theorem issue_busy : (issue ws s).busy = s.busy := rfl
@[simp] theorem issue_seq : (issue ws s).seq = s.seq := rfl
@[simp] theorem issue_waitTimer : (issue ws s).waitTimer = s.waitTimer := rfl
@[simp] theorem issue_genCount : (issue ws s).genCount = s.genCount := rfl
@[simp] theorem issue_host : (issue ws s).host = s.host ++ ws := rfl
@[simp] theorem issue_responses : (issue ws s).responses = s.responses := rfl
@[simp] theorem issue_trace : (issue ws s).trace = s.trace := rfl
@[simp] theorem issue_psg : (issue ws s).psg = s.psg := rfl
@[simp] theorem issue_moment : (issue ws s).moment = s.moment := rfl
@[simp] theorem issue_board : (issue ws s).board = s.board := rfl

end

section
variable (e : Psg) (s : State)

@[simp] theorem attach_rdata : (attach e s).rdata = s.rdata := rfl
@[simp] theorem attach_hash : (attach e s).hash = s.hash := rfl
@[simp] theorem attach_ctype : (attach e s).ctype = s.ctype := rfl
@[simp] theorem attach_rclock : (attach e s).rclock = s.rclock := rfl
@[simp] theorem attach_clkdiv : (attach e s).clkdiv = s.clkdiv := rfl
@[simp] theorem attach_lines : (attach e s).lines = s.lines := rfl
@[simp] theorem attach_clken : (attach e s).clken = s.clken := rfl
@[simp] theorem attach_iddone : (attach e s).iddone = s.iddone := rfl
@[simp] theorem attach_busy : (attach e s).busy = s.busy := rfl
@[simp] theorem attach_seq : (attach e s).seq = s.seq := rfl
@[simp] theorem attach_waitTimer : (attach e s).waitTimer = s.waitTimer := rfl
@[simp] theorem attach_genCount : (attach e s).genCount = s.genCount := rfl
@[simp] theorem attach_host : (attach e s).host = s.host := rfl
@[simp] theorem attach_responses : (attach e s).responses = s.responses := rfl
@[simp] theorem attach_trace : (attach e s).trace = s.trace := rfl
@[simp] theorem attach_psg : (attach e s).psg = e := rfl
@[simp] theorem attach_moment : (attach e s).moment = s.moment := rfl
@[simp] theorem attach_board : (attach e s).board = s.board := rfl

end

section
variable (v : PowerOnValues) (s : State)

@[simp] theorem powerCycle_rdata : (powerCycle v s).rdata = v.rdata := rfl
@[simp] theorem powerCycle_hash : (powerCycle v s).hash = v.hash := rfl
@[simp] theorem powerCycle_ctype : (powerCycle v s).ctype = v.ctype := rfl
@[simp] theorem powerCycle_rclock : (powerCycle v s).rclock = 0 := rfl
@[simp] theorem powerCycle_clkdiv : (powerCycle v s).clkdiv = v.clkdiv := rfl
@[simp] theorem powerCycle_lines : (powerCycle v s).lines = Lines.rest v.dout := rfl
@[simp] theorem powerCycle_clken : (powerCycle v s).clken = false := rfl
@[simp] theorem powerCycle_iddone : (powerCycle v s).iddone = false := rfl
@[simp] theorem powerCycle_busy : (powerCycle v s).busy = false := rfl
@[simp] theorem powerCycle_seq : (powerCycle v s).seq = v.seq.val := rfl
@[simp] theorem powerCycle_waitTimer : (powerCycle v s).waitTimer = 0 := rfl
@[simp] theorem powerCycle_genCount : (powerCycle v s).genCount = v.genCount := rfl
@[simp] theorem powerCycle_host : (powerCycle v s).host = s.host := rfl
@[simp] theorem powerCycle_responses : (powerCycle v s).responses = s.responses := rfl
@[simp] theorem powerCycle_trace : (powerCycle v s).trace = s.trace ++ [.set (Lines.rest v.dout), .clock none] := rfl
@[simp] theorem powerCycle_psg : (powerCycle v s).psg = s.psg := rfl
@[simp] theorem powerCycle_moment : (powerCycle v s).moment = s.moment + 1 := rfl
@[simp] theorem powerCycle_board : (powerCycle v s).board = s.board := rfl

end

end Sys2Proof.Machine
end

