-- ==== Sys2Proof/Laws/Ops.lean ====
section
/-! SUPPORT. One lemma for each shared operation that says everything it does: a wait, the four bus cycles from lines at
rest (40_bus_cycles.md R81), and a list of cycles of an identification run. -/

namespace Sys2Proof.Machine

/-- A wait leaves its item in the trace and the timer at 0. -/
theorem wait_eq (t : Nat) (s : State) :
    wait t s = { s with waitTimer := 0, trace := s.trace ++ [waitItem s.board t] } := rfl

/-- `BusAddr(a)` (R82), in every state. -/
theorem busAddr_eq (a : Byte) (s : State) :
    busAddr a s =
      { s with lines := { s.lines with phase := .idle, doe := false, dout := a }, waitTimer := 0,
               trace := s.trace ++
                [ .set { s.lines with dout := a, doe := true }, waitItem s.board 0,
                  .set { s.lines with dout := a, doe := true, phase := .addr }, waitItem s.board tAS,
                  .set { s.lines with dout := a, doe := true, phase := .idle }, waitItem s.board tAH,
                  .set { s.lines with dout := a, doe := false, phase := .idle } ] } := by
  simp [busAddr, release, wait_eq, setPhase, drive, setLines]

/-- `BusWrite(x)` (R84), in every state. -/
theorem busWrite_eq (x : Byte) (s : State) :
    busWrite x s =
      { s with lines := { s.lines with phase := .idle, doe := false, dout := x }, waitTimer := 0,
               trace := s.trace ++
                [ .set { s.lines with dout := x, doe := true }, waitItem s.board 0,
                  .set { s.lines with dout := x, doe := true, phase := .write }, waitItem s.board tDW,
                  .set { s.lines with dout := x, doe := true, phase := .idle }, waitItem s.board tDH,
                  .set { s.lines with dout := x, doe := false, phase := .idle } ] } := by
  simp [busWrite, release, wait_eq, setPhase, drive, setLines]

/-- The byte that `BusRead()` samples: `DBUS()` after the access wait (R86). -/
def readByte (s : State) : Byte := dbus (wait tDA (setPhase .read s))

/-- `BusRead()` (R86), in every state. -/
theorem busRead_eq (s : State) :
    busRead s =
      { s with rdata := readByte s, lines := { s.lines with phase := .idle }, waitTimer := 0,
               psg := if s.lines.doe then s.psg else s.psg.answered,
               trace := s.trace ++
                [ .set { s.lines with phase := .read }, waitItem s.board tDA, .sample (readByte s),
                  .set { s.lines with phase := .idle }, waitItem s.board tTS ] } := by
  have hc : chipAsked (wait tDA (setPhase .read s)) = !s.lines.doe := by
    simp [chipAsked, wait_eq, setPhase, setLines]
  have hb : dbus (wait tDA (setPhase .read s)) = readByte s := rfl
  simp only [busRead, sampleBus, hb, hc]
  cases h : s.lines.doe <;> simp [wait_eq, setPhase, setLines, h]

/-- `BusReset()` (R88), in every state. -/
theorem busReset_eq (s : State) :
    busReset s =
      { s with lines := { s.lines with phase := .idle, doe := false, rst := false }, waitTimer := 0,
               trace := s.trace ++
                [ .set { s.lines with phase := .idle, doe := false },
                  .set { s.lines with phase := .idle, doe := false, rst := true }, waitItem s.board tRW,
                  .set { s.lines with phase := .idle, doe := false, rst := false }, waitItem s.board tRB ] } := by
  simp [busReset, busSetup, wait_eq, setRst, setLines]

/-- `BusAddr(a)` (R82) from lines at rest. -/
theorem busAddr_rest {s : State} {d : Byte} (h : s.lines = Lines.rest d) (a : Byte) :
    busAddr a s =
      { s with lines := Lines.rest a, waitTimer := 0, trace := s.trace ++ addrTrace s.board a } := by
  rw [busAddr_eq]; simp [h, Lines.rest, addrTrace, setItem, tAS, tAH]

/-- `BusWrite(x)` (R84) from lines at rest. -/
theorem busWrite_rest {s : State} {d : Byte} (h : s.lines = Lines.rest d) (x : Byte) :
    busWrite x s =
      { s with lines := Lines.rest x, waitTimer := 0, trace := s.trace ++ writeTrace s.board x } := by
  rw [busWrite_eq]; simp [h, Lines.rest, writeTrace, setItem, tDW, tDH]

/-- `BusRead()` (R86) from lines at rest. -/
theorem busRead_rest {s : State} {d : Byte} (h : s.lines = Lines.rest d) :
    busRead s =
      { s with rdata := readByte s, lines := Lines.rest d, waitTimer := 0, psg := s.psg.answered,
               trace := s.trace ++ readTrace s.board d (readByte s) } := by
  rw [busRead_eq]; simp [h, Lines.rest, readTrace, setItem, tDA, tTS]

/-- `BusReset()` (R88) from lines at rest. -/
theorem busReset_rest {s : State} {d : Byte} (h : s.lines = Lines.rest d) :
    busReset s =
      { s with lines := Lines.rest d, waitTimer := 0, trace := s.trace ++ resetTrace s.board d } := by
  rw [busReset_eq]; simp [h, Lines.rest, resetTrace, setItem, tRW, tRB]

/-- The byte sampled while the controller does not drive is the chip side's (R24). -/
theorem readByte_rest {s : State} (h : s.lines.doe = false) :
    readByte s = psgRead (wait tDA (setPhase .read s)) := by
  simp [readByte, dbus, wait_eq, setPhase, setLines, h]

/-- Lines at rest, in the two spellings. -/
theorem lines_eq_rest {l : Lines} (h : l.phase = .idle ∧ l.doe = false ∧ l.rst = false) :
    l = Lines.rest l.dout := by
  obtain ⟨ph, doe, dout, rst⟩ := l
  obtain ⟨h1, h2, h3⟩ := h
  simp_all [Lines.rest]

/-- The byte a read samples is one the chip side gives, and what is left gives the rest (R43, R44). -/
theorem gives_cons {s : State} {bs : List Byte} (hd : s.lines.doe = false) (h : s.psg.answered.Gives bs) :
    s.psg.Gives (readByte s :: bs) := by
  rw [readByte_rest hd]
  unfold Psg.Gives at *
  rcases hp : s.psg with _ | ⟨c, _ | ⟨x, xs⟩⟩
  · simp [Psg.answered, hp] at h
    simpa [psgRead, wait_eq, setPhase, setLines, hp] using h
  · simp
  · simp_all [Psg.answered, psgRead, wait_eq, setPhase, setLines]

/-- Everything a list of cycles does from lines at rest: some bytes are read, as many as the list has reads and such as the
chip side gives; they are folded in order; the trace is the one the cycles prescribe. -/
theorem runCycles_rest (cs : List Cycle) :
    ∀ {s : State} {d : Byte}, s.lines = Lines.rest d →
      ∃ bs : List Byte, bs.length = readCount cs ∧ s.psg.Gives bs ∧
        runCycles cs s =
          { s with rdata := bs.getLast?.getD s.rdata, hash := bs.foldl foldByte s.hash,
                   seq := s.seq + cs.length, lines := Lines.rest (lastDriven d cs),
                   waitTimer := if cs.isEmpty then s.waitTimer else 0,
                   trace := s.trace ++ cyclesTrace s.board d cs bs,
                   psg := s.psg.answeredTimes (readCount cs) } := by
  induction cs with
  | nil =>
    intro s d h
    refine ⟨[], rfl, ?_, ?_⟩
    · unfold Psg.Gives; split <;> simp
    · simp [runCycles, lastDriven, cyclesTrace, readCount, Psg.answeredTimes, ← h]
  | cons c cs ih =>
    intro s d h
    cases c with
    | a x =>
      obtain ⟨bs, hl, hg, he⟩ := ih (s := runCycle (.a x) s) (d := x) (by simp [runCycle, busAddr_rest h])
      refine ⟨bs, hl, ?_, ?_⟩
      · simpa [runCycle, busAddr_rest h] using hg
      · simp [runCycles, he]
        simp [runCycle, busAddr_rest h, lastDriven, cyclesTrace, readCount, Nat.add_comm, Nat.add_left_comm, advanceSeq]
    | w x =>
      obtain ⟨bs, hl, hg, he⟩ := ih (s := runCycle (.w x) s) (d := x) (by simp [runCycle, busWrite_rest h])
      refine ⟨bs, hl, ?_, ?_⟩
      · simpa [runCycle, busWrite_rest h] using hg
      · simp [runCycles, he]
        simp [runCycle, busWrite_rest h, lastDriven, cyclesTrace, readCount, Nat.add_comm, Nat.add_left_comm, advanceSeq]
    | r =>
      obtain ⟨bs, hl, hg, he⟩ := ih (s := runCycle .r s) (d := d) (by simp [runCycle, busRead_rest h])
      refine ⟨readByte s :: bs, by simp [hl, readCount], ?_, ?_⟩
      · exact gives_cons (by simp [h, Lines.rest]) (by simpa [runCycle, busRead_rest h] using hg)
      · simp [runCycles, he]
        simp [runCycle, busRead_rest h, lastDriven, cyclesTrace, readCount, Nat.add_assoc, Nat.add_comm 1, advanceSeq,
          foldHash, Psg.answeredTimes, List.getLast?_cons]

/-- Everything `n` bus cycles of a run do, in every state, lines at rest or not, when they add `tr` to the trace: what is
sampled is folded in order (R111), every wait is counted out as R90 says, and every field a run does not name is as before. -/
structure RunEffect (n : Nat) (s t : State) (tr : List TraceItem) : Prop where
  trace     : t.trace = s.trace ++ tr
  hash      : t.hash = (samples tr).foldl foldByte s.hash
  waits     : ∀ f k, TraceItem.wait f k ∈ tr → k = waitPeriods s.board f
  seq       : t.seq = s.seq + n
  ctype     : t.ctype = s.ctype
  rclock    : t.rclock = s.rclock
  clkdiv    : t.clkdiv = s.clkdiv
  clken     : t.clken = s.clken
  iddone    : t.iddone = s.iddone
  busy      : t.busy = s.busy
  genCount  : t.genCount = s.genCount
  host      : t.host = s.host
  responses : t.responses = s.responses
  moment    : t.moment = s.moment
  board     : t.board = s.board

theorem samples_append (x y : List TraceItem) : samples (x ++ y) = samples x ++ samples y := by
  induction x with
  | nil => rfl
  | cons i x ih => cases i <;> simp [samples, ih]

theorem RunEffect.refl (s : State) : RunEffect 0 s s [] where
  trace := by simp
  hash := rfl
  waits := by simp
  seq := rfl
  ctype := rfl
  rclock := rfl
  clkdiv := rfl
  clken := rfl
  iddone := rfl
  busy := rfl
  genCount := rfl
  host := rfl
  responses := rfl
  moment := rfl
  board := rfl

theorem RunEffect.trans {n m : Nat} {s t u : State} {tr tr' : List TraceItem}
    (h : RunEffect n s t tr) (h' : RunEffect m t u tr') : RunEffect (n + m) s u (tr ++ tr') where
  trace := by rw [h'.trace, h.trace, List.append_assoc]
  hash := by rw [h'.hash, h.hash, samples_append, List.foldl_append]
  waits f k hk := by
    rcases List.mem_append.1 hk with hk | hk
    · exact h.waits f k hk
    · rw [← h.board]; exact h'.waits f k hk
  seq := by rw [h'.seq, h.seq, Nat.add_assoc]
  ctype := h'.ctype.trans h.ctype
  rclock := h'.rclock.trans h.rclock
  clkdiv := h'.clkdiv.trans h.clkdiv
  clken := h'.clken.trans h.clken
  iddone := h'.iddone.trans h.iddone
  busy := h'.busy.trans h.busy
  genCount := h'.genCount.trans h.genCount
  host := h'.host.trans h.host
  responses := h'.responses.trans h.responses
  moment := h'.moment.trans h.moment
  board := h'.board.trans h.board

/-- One bus cycle of a run, in every state. -/
theorem runCycle_effect (c : Cycle) (s : State) :
    ∃ tr, RunEffect 1 s (runCycle c s) tr ∧ (samples tr).length = readCount [c] := by
  cases c with
  | a x =>
    simp only [runCycle, busAddr_eq, advanceSeq]
    refine ⟨_, ⟨rfl, rfl, ?_, rfl, rfl, rfl, rfl, rfl, rfl, rfl, rfl, rfl, rfl, rfl, rfl⟩, rfl⟩
    simp only [waitItem]; grind
  | w x =>
    simp only [runCycle, busWrite_eq, advanceSeq]
    refine ⟨_, ⟨rfl, rfl, ?_, rfl, rfl, rfl, rfl, rfl, rfl, rfl, rfl, rfl, rfl, rfl, rfl⟩, rfl⟩
    simp only [waitItem]; grind
  | r =>
    simp only [runCycle, busRead_eq, foldHash, advanceSeq]
    refine ⟨_, ⟨rfl, rfl, ?_, rfl, rfl, rfl, rfl, rfl, rfl, rfl, rfl, rfl, rfl, rfl, rfl⟩, rfl⟩
    simp only [waitItem]; grind

theorem readCount_cons (c : Cycle) (cs : List Cycle) : readCount (c :: cs) = readCount [c] + readCount cs := by
  cases c <;> simp [readCount, Nat.add_comm]

/-- A list of cycles, in every state. -/
theorem runCycles_effect (cs : List Cycle) :
    ∀ s : State, ∃ tr, RunEffect cs.length s (runCycles cs s) tr ∧ (samples tr).length = readCount cs := by
  induction cs with
  | nil => intro s; exact ⟨[], RunEffect.refl s, rfl⟩
  | cons c cs ih =>
    intro s
    obtain ⟨tr, h, hn⟩ := runCycle_effect c s
    obtain ⟨tr', h', hn'⟩ := ih (runCycle c s)
    refine ⟨tr ++ tr', ?_, ?_⟩
    · rw [List.length_cons, Nat.add_comm]; exact h.trans h'
    · rw [samples_append, List.length_append, hn, hn', ← readCount_cons]

end Sys2Proof.Machine
end

