-- ==== Sys2Proof/Laws/Ident.lean ====
section
/-! SUPPORT. What an identification run and the default clock do to each field, in every state, and that a run neither reads
nor writes `CTYPE` or `IDDONE`. -/

namespace Sys2Proof.Machine

/-- The bytes of a run are folded from the seed, as many as the run has reads, and its trace is added to the one before. -/
theorem identify_effect (s : State) :
    ∃ tr, (identify s).trace = s.trace ++ tr ∧ (samples tr).length = readCount (identCycles s.board) ∧
      (identify s).hash = (samples tr).foldl foldByte hashSeed ∧
      (identify s).ctype = (s.board.classify (identify s).hash).code ∧
      (identify s).seq = (identCycles s.board).length ∧
      ∀ f k, TraceItem.wait f k ∈ tr → k = waitPeriods s.board f := by
  obtain ⟨tr, h, hn⟩ := runCycles_effect (identCycles s.board) (seedRun (clearIddone s))
  refine ⟨tr, by simp [identify, h.trace], hn, by simp [identify, h.hash], ?_, ?_, h.waits⟩
  · simp only [identify, setIddone_ctype, classifyHash_ctype, setIddone_hash, classifyHash_hash]
    rw [h.board]; simp
  · have := h.seq
    simp only [seedRun_seq, Nat.zero_add] at this
    simpa only [identify, setIddone_seq, classifyHash_seq] using this

section
variable (s : State)

@[simp] theorem identify_iddone : (identify s).iddone = true := rfl
@[simp] theorem identify_rclock : (identify s).rclock = s.rclock :=
  (runCycles_effect (identCycles s.board) (seedRun (clearIddone s))).elim fun _ h => by simp [identify, h.1.rclock]
@[simp] theorem identify_clkdiv : (identify s).clkdiv = s.clkdiv :=
  (runCycles_effect (identCycles s.board) (seedRun (clearIddone s))).elim fun _ h => by simp [identify, h.1.clkdiv]
@[simp] theorem identify_clken : (identify s).clken = s.clken :=
  (runCycles_effect (identCycles s.board) (seedRun (clearIddone s))).elim fun _ h => by simp [identify, h.1.clken]
@[simp] theorem identify_busy : (identify s).busy = s.busy :=
  (runCycles_effect (identCycles s.board) (seedRun (clearIddone s))).elim fun _ h => by simp [identify, h.1.busy]
@[simp] theorem identify_genCount : (identify s).genCount = s.genCount :=
  (runCycles_effect (identCycles s.board) (seedRun (clearIddone s))).elim fun _ h => by simp [identify, h.1.genCount]
@[simp] theorem identify_host : (identify s).host = s.host :=
  (runCycles_effect (identCycles s.board) (seedRun (clearIddone s))).elim fun _ h => by simp [identify, h.1.host]
@[simp] theorem identify_responses : (identify s).responses = s.responses :=
  (runCycles_effect (identCycles s.board) (seedRun (clearIddone s))).elim fun _ h => by simp [identify, h.1.responses]
@[simp] theorem identify_moment : (identify s).moment = s.moment :=
  (runCycles_effect (identCycles s.board) (seedRun (clearIddone s))).elim fun _ h => by simp [identify, h.1.moment]
@[simp] theorem identify_board : (identify s).board = s.board :=
  (runCycles_effect (identCycles s.board) (seedRun (clearIddone s))).elim fun _ h => by simp [identify, h.1.board]

end

/-- The default clock: nothing where a clock is set, else the generator configured for `DEFAULT_CLOCK` (R142). -/
theorem defaultClock_eq (s : State) :
    defaultClock s = if s.rclock = 0 then configureClock s.board.defaultClock s else s := by
  by_cases h : s.rclock = 0 <;> simp [defaultClock, clkset, h]

/-- Bus cycles do the same whatever `CTYPE` and `IDDONE` are (R146). -/
theorem runCycles_ready (cs : List Cycle) (ct : BitVec 4) (d : Bool) :
    ∀ s : State, runCycles cs { s with ctype := ct, iddone := d } =
      { runCycles cs s with ctype := ct, iddone := d } := by
  induction cs with
  | nil => intro s; rfl
  | cons c cs ih =>
    intro s
    simp only [runCycles]
    rw [← ih (runCycle c s)]
    cases c with
    | a x => simp only [runCycle, busAddr_eq, advanceSeq]
    | w x => simp only [runCycle, busWrite_eq, advanceSeq]
    | r => simp only [runCycle, busRead_eq, foldHash, advanceSeq]; rfl

/-- An identification run ends in the same state whatever `CTYPE` and `IDDONE` were (R146). -/
theorem identify_ready (s : State) (ct : BitVec 4) (d : Bool) :
    identify { s with ctype := ct, iddone := d } = identify s := by
  have h := runCycles_ready (identCycles s.board) ct false (seedRun (clearIddone s))
  simp only [seedRun, clearIddone] at h
  simp only [identify, seedRun, clearIddone, h, classifyHash, setIddone]

end Sys2Proof.Machine
end

