-- ==== Sys2Proof/Laws/Chip.lean ====
section
/-! SUPPORT. What the byte of a read can depend on: not on the clock where the chip side settles it (41_clock.md R106), not on
what `DOUT` holds while the controller does not drive (10_state.md R19); and that the line events of a cycle depend on no
byte read. -/

namespace Sys2Proof.Machine

section
variable {n : Nat} {e : Psg}

theorem Psg.Settled.one (h : e.Settled (n + 1)) : e.Settled 1 := by
  cases e with
  | absent => trivial
  | chip c xs => exact Nat.le_trans (Nat.le_add_left 1 n) h

theorem Psg.Settled.weaken (h : e.Settled (n + 1)) : e.Settled n := by
  cases e with
  | absent => trivial
  | chip c xs => exact Nat.le_of_succ_le h

theorem Psg.Settled.answered (h : e.Settled (n + 1)) : e.answered.Settled n := by
  cases e with
  | absent => trivial
  | chip c xs =>
    simp only [Psg.Settled, Psg.answered, List.length_tail] at h ⊢
    omega

end

/-- A settled read gives the same byte whatever the clock generator is doing. -/
theorem readByte_clock {s : State} (h : s.psg.Settled 1) (rc cd : Word) (en : Bool) (g : Nat) :
    readByte { s with rclock := rc, clkdiv := cd, clken := en, genCount := g } = readByte s := by
  simp only [readByte, dbus, psgRead, wait_eq, setPhase, setLines]
  rcases hp : s.psg with _ | ⟨c, _ | ⟨x, xs⟩⟩
  · rfl
  · rw [hp] at h; simp [Psg.Settled] at h
  · rfl

/-- Bus cycles whose reads are settled do the same whatever the clock generator is doing (R106). -/
theorem runCycles_clock (cs : List Cycle) (rc cd : Word) (en : Bool) (g : Nat) :
    ∀ s : State, s.psg.Settled (readCount cs) →
      runCycles cs { s with rclock := rc, clkdiv := cd, clken := en, genCount := g } =
        { runCycles cs s with rclock := rc, clkdiv := cd, clken := en, genCount := g } := by
  induction cs with
  | nil => intro s _; rfl
  | cons c cs ih =>
    intro s h
    simp only [runCycles]
    cases c with
    | a x =>
      rw [← ih (runCycle (.a x) s) (by simpa [runCycle, busAddr_eq, advanceSeq, readCount] using h)]
      simp only [runCycle, busAddr_eq, advanceSeq]
    | w x =>
      rw [← ih (runCycle (.w x) s) (by simpa [runCycle, busWrite_eq, advanceSeq, readCount] using h)]
      simp only [runCycle, busWrite_eq, advanceSeq]
    | r =>
      have h' : s.psg.Settled (readCount cs + 1) := h
      rw [← ih (runCycle .r s) ?_]
      · simp only [runCycle, busRead_eq, foldHash, advanceSeq, readByte_clock h'.one]
      · simp only [runCycle, busRead_eq, foldHash, advanceSeq]
        split
        · exact h'.weaken
        · exact h'.answered

/-- An identification run whose reads are settled does the same whatever the clock generator is doing (R106). -/
theorem identify_clock {s : State} (h : s.psg.Settled (readCount (identCycles s.board))) (rc cd : Word) (en : Bool) (g : Nat) :
    identify { s with rclock := rc, clkdiv := cd, clken := en, genCount := g } =
      { identify s with rclock := rc, clkdiv := cd, clken := en, genCount := g } := by
  have h := runCycles_clock (identCycles s.board) rc cd en g (seedRun (clearIddone s)) h
  simp only [seedRun, clearIddone] at h
  simp only [identify, seedRun, clearIddone, h, classifyHash, setIddone]

theorem lineEvents_append (x y : List TraceItem) : lineEvents (x ++ y) = lineEvents x ++ lineEvents y := by
  induction x with
  | nil => rfl
  | cons i x ih => cases i <;> simp [lineEvents, ih]

theorem minDuration_append (x y : List TraceItem) : minDuration (x ++ y) = minDuration x + minDuration y := by
  induction x with
  | nil => simp [minDuration]
  | cons i x ih => cases i <;> simp [minDuration, ih, Nat.add_assoc]

/-- Two machines on whose buses the same has happened so far: the same lines, line events and time waited. -/
structure SameBus (s t : State) : Prop where
  lines : s.lines = t.lines
  events : lineEvents s.trace = lineEvents t.trace
  time : minDuration s.trace = minDuration t.trace

/-- What happens on the bus in a list of cycles depends on no byte read (R121). -/
theorem SameBus.runCycles (cs : List Cycle) :
    ∀ {s t : State}, SameBus s t → SameBus (runCycles cs s) (runCycles cs t) := by
  induction cs with
  | nil => exact id
  | cons c cs ih =>
    intro s t ⟨hl, he, hd⟩
    refine ih ?_
    cases c <;> constructor <;>
      simp [runCycle, busAddr_eq, busWrite_eq, busRead_eq, foldHash, advanceSeq, lineEvents_append, minDuration_append,
        lineEvents, minDuration, waitItem, hl, he, hd]

/-- Lines that the chip cannot tell apart (R19): only an undriven `DOUT` can differ. -/
theorem seen_eq_iff {l k : Lines} :
    l.seen = k.seen ↔ l.phase = k.phase ∧ l.doe = k.doe ∧ l.rst = k.rst ∧ (l.doe = true → l.dout = k.dout) := by
  obtain ⟨p, e, d, r⟩ := l
  obtain ⟨p', e', d', r'⟩ := k
  cases e <;> cases e' <;> simp [Lines.seen]
  tauto

/-- Two machines that differ at most in what the chip cannot see: an undriven `DOUT`, now or in the past (R19). -/
structure SeenAlike (s t : State) : Prop where
  lines : s.lines.seen = t.lines.seen
  trace : s.trace.map TraceItem.seen = t.trace.map TraceItem.seen
  rest  : t = { s with lines := t.lines, trace := t.trace }

namespace SeenAlike

variable {s t : State} (h : SeenAlike s t)
include h

theorem setLines {l k : Lines} (hl : l.seen = k.seen) : SeenAlike (setLines l s) (setLines k t) where
  lines := hl
  trace := by simp [h.trace, TraceItem.seen, hl]
  rest := by rw [h.rest]; rfl

theorem setPhase (ph : Phase) : SeenAlike (setPhase ph s) (setPhase ph t) :=
  h.setLines (seen_eq_iff.2 ⟨rfl, (seen_eq_iff.1 h.lines).2⟩)

theorem drive (b : Byte) : SeenAlike (drive b s) (drive b t) :=
  have e := seen_eq_iff.1 h.lines
  h.setLines (seen_eq_iff.2 ⟨e.1, rfl, e.2.2.1, fun _ => rfl⟩)

theorem release : SeenAlike (release s) (release t) :=
  have e := seen_eq_iff.1 h.lines
  h.setLines (seen_eq_iff.2 ⟨e.1, rfl, e.2.2.1, nofun⟩)

theorem setRst (r : Bool) : SeenAlike (setRst r s) (setRst r t) :=
  have e := seen_eq_iff.1 h.lines
  h.setLines (seen_eq_iff.2 ⟨e.1, e.2.1, rfl, e.2.2.2⟩)

theorem busSetup : SeenAlike (busSetup s) (busSetup t) :=
  have e := seen_eq_iff.1 h.lines
  h.setLines (seen_eq_iff.2 ⟨rfl, rfl, e.2.2.1, nofun⟩)

theorem wait (n : Nat) : SeenAlike (wait n s) (wait n t) where
  lines := h.lines
  trace := by rw [h.rest]; simp [wait_eq, h.trace]
  rest := by rw [h.rest]; rfl

/-- The byte on the bus depends only on what the chip can see (R19, R24, R43). -/
theorem dbus : dbus s = dbus t := by
  obtain ⟨hl, ht, hr⟩ := h
  obtain ⟨hp, he, -, hd⟩ := seen_eq_iff.1 hl
  rw [hr]
  simp only [Machine.dbus, psgRead, clockOutput, ← hp, ← he, ht]
  split
  · exact hd ‹_›
  · rfl

theorem sampleBus : SeenAlike (sampleBus s) (sampleBus t) := by
  have hb := h.dbus
  obtain ⟨hl, ht, hr⟩ := h
  obtain ⟨hp, he, -, -⟩ := seen_eq_iff.1 hl
  refine ⟨hl, by simp [ht, hb], ?_⟩
  generalize t.lines = l at *
  generalize t.trace = tr at *
  subst hr
  simp only [Machine.sampleBus, ← hb, chipAsked, hp, he]
  congr

theorem busAddr (a : Byte) : SeenAlike (busAddr a s) (busAddr a t) :=
  (((((h.drive a).wait _).setPhase _).wait _ |>.setPhase _).wait _).release

theorem busWrite (d : Byte) : SeenAlike (busWrite d s) (busWrite d t) :=
  (((((h.drive d).wait _).setPhase _).wait _ |>.setPhase _).wait _).release

theorem busRead : SeenAlike (busRead s) (busRead t) :=
  ((((h.setPhase _).wait _).sampleBus).setPhase _).wait _

theorem busReset : SeenAlike (busReset s) (busReset t) :=
  ((((h.busSetup).setRst _).wait _).setRst _).wait _

end SeenAlike

end Sys2Proof.Machine
end

