-- ==== Sys2Proof/Laws/Decode.lean ====
section
/-! SUPPORT. The fields of a command word, the mask of the opcode map and the encoder, as numbers. -/

namespace Sys2Proof

/-- `op` as a number (R62). -/
theorem opField_toNat (w : Word) : (opField w).toNat = w.toNat / 2 ^ 28 := by
  have := w.isLt
  simp [opField, BitVec.extractLsb'_toNat, Nat.shiftRight_eq_div_pow]; omega

/-- `arg` as a number (R62). -/
theorem argField_toNat (w : Word) : (argField w).toNat = w.toNat % 2 ^ 28 := by
  simp [argField, BitVec.extractLsb'_toNat]

/-- The byte operand is bits 7:0 of the word (R65). -/
theorem argByte_eq (w : Word) : argByte w = w.extractLsb' 0 8 := by
  ext i hi; simp [argByte, argField]

/-- The mask of `arg`. -/
theorem low_mask (w : Word) : (w &&& 0x0FFFFFFF#32).toNat = w.toNat % 2 ^ 28 := by
  rw [BitVec.toNat_and]; exact Nat.and_two_pow_sub_one_eq_mod w.toNat 28

/-- The frequency operand is the word with `op` cleared (R66). -/
theorem argFreq_eq (w : Word) : argFreq w = w &&& 0x0FFFFFFF#32 := by
  apply BitVec.eq_of_toNat_eq
  rw [low_mask, argFreq, BitVec.toNat_setWidth, argField_toNat]; omega

/-- The mask of the opcode map keeps `op` in its place. -/
theorem high_mask (w : Word) : w &&& 0xF0000000#32 = (w >>> 28) <<< 28 := by
  ext i hi
  interval_cases i <;> simp

/-- The masked word as a number (R63). -/
theorem high_mask_toNat (w : Word) : (w &&& 0xF0000000#32).toNat = w.toNat / 2 ^ 28 * 2 ^ 28 := by
  have := w.isLt
  rw [high_mask]
  simp [BitVec.toNat_shiftLeft, Nat.shiftRight_eq_div_pow, Nat.shiftLeft_eq]
  omega

/-- The encoder as a number: `{op, arg}` (R62). -/
theorem encode_toNat (i : Instr) : (encode i).toNat = i.opcode.toNat * 2 ^ 28 + i.operand.toNat := by
  have h := i.operand.isLt
  have : (encode i).toNat = i.opcode.toNat <<< 28 ||| i.operand.toNat := BitVec.toNat_append _ _
  rw [this, ← Nat.shiftLeft_add_eq_or_of_lt h, Nat.shiftLeft_eq]

end Sys2Proof
end

