-- ==== Sys2Proof/Laws/PerInstr.lean ====
section
/-! SUPPORT. One fact about every command as syntax: its word stands in the row of the opcode map that bears its name. -/

namespace Sys2Proof.Laws.InItsRow

/-- The encoder puts the command into its row of R63: the row of its mnemonic selects its word. -/
def Statement (i : Instr) : Prop :=
  ∃ r ∈ opcodeTable, r.mnemonic = i.mnemonic ∧ encode i &&& r.mask = r.pattern

/-- A row selects a command's word when its pattern is the command's `op` in its place. -/
theorem of_pattern {i : Instr} {m : String} {p : Word} (h : ⟨m, p, 0xF0000000#32⟩ ∈ opcodeTable) (hm : m = i.mnemonic)
    (hp : p.toNat = i.opcode.toNat * 2 ^ 28) : Statement i := by
  refine ⟨_, h, hm, BitVec.eq_of_toNat_eq ?_⟩
  have hi := i.operand.isLt
  rw [high_mask_toNat, encode_toNat, hp]
  omega

/-- The row of position `n` of the map. -/
theorem row_mem (n : Fin 11) : opcodeTable[n.val]'n.isLt ∈ opcodeTable := List.getElem_mem _

theorem reset : Statement .reset := of_pattern (row_mem 0) rfl rfl
theorem addr (r : Byte) : Statement (.addr r) := of_pattern (row_mem 1) rfl (by simp [Instr.opcode])
theorem write (d : Byte) : Statement (.write d) := of_pattern (row_mem 2) rfl (by simp [Instr.opcode])
theorem read : Statement .read := of_pattern (row_mem 3) rfl rfl
theorem setclk (f : Word) : Statement (.setclk f) := of_pattern (row_mem 4) rfl (by simp [Instr.opcode])
theorem getclk : Statement .getclk := of_pattern (row_mem 5) rfl rfl
theorem ident : Statement .ident := of_pattern (row_mem 6) rfl rfl
theorem init : Statement .init := of_pattern (row_mem 7) rfl rfl
theorem gethash : Statement .gethash := of_pattern (row_mem 8) rfl rfl
theorem gettype : Statement .gettype := of_pattern (row_mem 9) rfl rfl
theorem isready : Statement .isready := of_pattern (row_mem 10) rfl rfl

end Sys2Proof.Laws.InItsRow
end

