-- ==== Sys2Proof/Laws/Step.lean ====
section
/-! SUPPORT. What a step does, case by case, and how a run of several steps begins. -/

namespace Sys2Proof.Machine

/-- While the port is busy a step accepts nothing (R61). -/
theorem step_busy {s : State} (h : s.busy = true) : step s = .next (elapse s) := by
  unfold step; rw [h]

/-- Without a command the block waits (R165). -/
theorem step_idle {s : State} (h : s.host = []) : step s = .next (elapse s) := by
  unfold step; rw [h]; cases s.busy <;> rfl

/-- A word that decodes is run. -/
theorem step_command {s : State} {w : Word} {rest : List Word} {i : Instr} (hb : s.busy = false)
    (hh : s.host = w :: rest) (hd : decode w = .ok i) :
    step s = elapseAfter (exec i (accept rest s)) := by
  unfold step; rw [hb, hh]; simp only [hd]

/-- A word with a reserved `op` is answered with 0 (R68). -/
theorem step_reserved {s : State} {w : Word} {rest : List Word} {e : Reject} (hb : s.busy = false)
    (hh : s.host = w :: rest) (hd : decode w = .error e) :
    step s = .next (elapse (reservedCommand (accept rest s))) := by
  unfold step; rw [hb, hh]; simp only [hd]

/-- A run of `n + 1` steps whose first step gives `t`. -/
theorem run_next {s t : State} (n : Nat) (h : step s = .next t) :
    Host.Core.run Sys2Proof.core (n + 1) s = Host.Core.run Sys2Proof.core n t := by
  have h' : Host.Core.step Sys2Proof.core s = .next t := h
  simp only [Host.Core.run, h']

end Sys2Proof.Machine
end

