-- ==== Sys2Proof/Tests/Slice0.lean ====
section
/-! SUPPORT. The model's own tests. Expected values are those of 95_test_vectors.md (V<n>) or of a rule's worked example, and
the parameters are that file's. The second half shows, for each statement with hypotheses, states and operands that meet
them. -/

namespace Sys2Proof.Tests

open Sys2Proof.Machine

/-- Some values for what R30 leaves unspecified. -/
def unset : PowerOnValues := ⟨0xA5#8, 0xDEADBEEF#32, 0x5A#8, 0x12345678#32, 0xC#4, 100, 3⟩

/-- A machine after power-on, with the parameters of 95_test_vectors.md. -/
def start (e : Psg) : State := State.powerOn Params.vectors unset e

/-- The state a command that never stops leaves; the given state where it stops. -/
def after (i : Instr) (s : State) : State :=
  match exec i s with
  | .next t => t
  | .fault _ => s
  | .refused _ => s

/-- The state one step leaves. -/
def stepped (s : State) : State :=
  match step s with
  | .next t => t
  | .fault _ => s
  | .refused _ => s

/-- The line states a trace holds, with their minimum times, without the one it starts from. -/
def held (s t : State) : List Segment := (segments s.lines 0 (t.trace.drop s.trace.length)).tail

/-- A segment, its fields in the order R93 writes them. -/
def seg (ph : Phase) (doe : Bool) (d : Byte) (rst : Bool) (t : Nat) : Segment := ⟨⟨ph, doe, d, rst⟩, t⟩

/-- A machine whose clock is set (V23). -/
def clocked : State := { start .absent with rclock := 1777777#32, clkdiv := 9#32, clken := true }

/-! ## Well-formedness -/

/-- 28 bits of `arg` hold at most 268,435,455 (R66). -/
theorem test_setclk_operand_too_wide : (Instr.setclk 0x10000000#32).wellFormed = false := by decide
theorem test_setclk_operand_widest : (Instr.setclk 0x0FFFFFFF#32).wellFormed = true := by decide

/-! ## Decoding: words written out from R62 to R69 and V1 to V6 -/

theorem test_decode_reset : decode 0b0001_0000_0000_0000_0000_0000_0000_0000#32 = .ok .reset := by rfl
theorem test_decode_addr : decode 0b0010_0000_0000_0000_0000_0000_0000_0111#32 = .ok (.addr 0x07#8) := by rfl
theorem test_decode_write : decode 0b0011_0000_0000_0000_0000_0000_0011_1000#32 = .ok (.write 0x38#8) := by rfl
theorem test_decode_read : decode 0b0100_0000_0000_0000_0000_0000_0000_0000#32 = .ok .read := by rfl
theorem test_decode_setclk : decode 0b0101_0000_0001_1010_1011_0011_1111_0000#32 = .ok (.setclk 1750000#32) := by rfl
theorem test_decode_getclk : decode 0b0110_0000_0000_0000_0000_0000_0000_0000#32 = .ok .getclk := by rfl
theorem test_decode_ident : decode 0b0111_0000_0000_0000_0000_0000_0000_0000#32 = .ok .ident := by rfl
theorem test_decode_init : decode 0b1000_0000_0000_0000_0000_0000_0000_0000#32 = .ok .init := by rfl
theorem test_decode_gethash : decode 0b1001_0000_0000_0000_0000_0000_0000_0000#32 = .ok .gethash := by rfl
theorem test_decode_gettype : decode 0b1010_0000_0000_0000_0000_0000_0000_0000#32 = .ok .gettype := by rfl
theorem test_decode_isready : decode 0b1011_0000_0000_0000_0000_0000_0000_0000#32 = .ok .isready := by rfl
/-- R69: the bits of `arg` that a command does not name are ignored. -/
theorem test_decode_ignored_bits :
    decode 0x2ABCDE07#32 = .ok (.addr 0x07#8) ∧ decode 0x4FFFFFFF#32 = .ok .read := by decide
/-- R68: the five reserved opcodes. -/
theorem test_decode_reserved :
    decode 0x00000000#32 = .error (.reservedOp 0x0#4) ∧ decode 0xC01AB3F0#32 = .error (.reservedOp 0xC#4) ∧
    decode 0xD0000000#32 = .error (.reservedOp 0xD#4) ∧ decode 0xEFFFFFFF#32 = .error (.reservedOp 0xE#4) ∧
    decode 0xF0000007#32 = .error (.reservedOp 0xF#4) := by decide
theorem test_encode_setclk : encode (.setclk 2500000#32) = 0x502625A0#32 := by decide
theorem test_decodeTableWord :
    decodeTableWord 32 0x3FFFFF38 = some (.write 0x38#8) ∧ decodeTableWord 32 0xC0000000 = none := by decide
/-- The opcode map selects no word twice. -/
theorem test_rows_disjoint :
    opcodeTable.Pairwise (fun a b => a.pattern &&& a.mask &&& b.mask ≠ b.pattern &&& a.mask &&& b.mask) := by decide

/-! ## Bus cycles -/

/-- V10. -/
theorem test_addr :
    held (start .absent) (after (.addr 0x07#8) (start .absent)) =
      [seg .idle true 0x07#8 false 0, seg .addr true 0x07#8 false 400, seg .idle true 0x07#8 false 100,
       seg .idle false 0x07#8 false 0] := by decide
/-- V11. -/
theorem test_write :
    held (start .absent) (after (.write 0x38#8) (start .absent)) =
      [seg .idle true 0x38#8 false 0, seg .write true 0x38#8 false 500, seg .idle true 0x38#8 false 100,
       seg .idle false 0x38#8 false 0] := by decide
/-- V12: the byte goes to `RDATA` and, zero-extended, to the response. -/
theorem test_read :
    (after .read (start (.chip 0 [0x38#8, 0x99#8]))).rdata = 0x38#8 ∧
    (after .read (start (.chip 0 [0x38#8, 0x99#8]))).responses = [0x00000038#32] := by decide
/-- V13, with its segments. -/
theorem test_read_absent :
    (after .read (start .absent)).responses = [0x000000FF#32] ∧
    held (start .absent) (after .read (start .absent)) =
      [seg .read false 0xA5#8 false 500, seg .idle false 0xA5#8 false 200] := by decide
/-- V14. -/
theorem test_reset :
    held (start .absent) (after .reset (start .absent)) =
      [seg .idle false 0xA5#8 true 500, seg .idle false 0xA5#8 false 100] ∧
    (after .reset (start .absent)).hash = 0x12345678#32 := by decide
/-- V19: waits at 16 MHz and at 20 MHz. -/
theorem test_wait_periods :
    [400, 100, 500, 200].map (waitPeriods Params.vectors) = [7, 2, 8, 4] ∧
    [400, 100, 500, 200].map (waitPeriods { Params.vectors with fCtrl := 20000000 }) = [8, 2, 10, 4] := by decide

/-! ## Clock -/

/-- V23, and the top of the band, V22. -/
theorem test_setclk :
    (after (.setclk 1773400#32) (start .absent)).rclock = 1777777#32 ∧
    (after (.setclk 1773400#32) (start .absent)).clkdiv = 9#32 ∧
    (after (.setclk 1773400#32) (start .absent)).trace = [.clock (some (16000000, 9))] ∧
    (after (.setclk 2000000#32) (start .absent)).clkdiv = 8#32 := by decide
/-- V24, V25, V26: just outside the band, on both sides, and 0. -/
theorem test_setclk_ignored :
    after (.setclk 999999#32) clocked = { clocked with responses := [0#32] } ∧
    after (.setclk 2000001#32) clocked = { clocked with responses := [0#32] } ∧
    (after (.setclk 0#32) (start .absent)).clkdiv = 0xDEADBEEF#32 := by decide
/-- V20, and V23's answer. -/
theorem test_getclk :
    (after .getclk (start .absent)).responses = [0#32] ∧ (after .getclk clocked).responses = [0x001B2071#32] := by decide

/-! ## Identification -/

/-- V30 at n = 1 and 6, V33, V34, V35. -/
theorem test_fold :
    foldByte 7#32 0xFF#8 = 472#32 ∧ foldByte 443751832#32 0xFF#8 = 0x33F09667#32 ∧
    foldByte 0xFFFFFFFF#32 0xFF#8 = 0x000000E0#32 ∧ foldByte 0x80000000#32 0x00#8 = 0x80000000#32 ∧
    foldByte 0x08421084#32 0xFF#8 = 0x000000FB#32 := by decide
/-- V37. -/
theorem test_pattern :
    sweep.map (pattern Params.vectors) =
      [0xFF#8, 0xFF#8, 0xFF#8, 0xFF#8, 0xFF#8, 0xFF#8, 0xFF#8, 0x3F#8,
       0xFF#8, 0xFF#8, 0xFF#8, 0xFF#8, 0xFF#8, 0x0F#8, 0xFF#8, 0xFF#8] := by decide
/-- V41. -/
theorem test_cycle_positions :
    [15, 27, 64, 127, 130, 131, 225, 251, 252, 287, 347].map (fun k => (identCycles Params.vectors)[k]?) =
      [some (.w 0x3F#8), some (.w 0x0F#8), some (.a 0x10#8), some .r, some .r, some (.a 0x01#8), some (.w 0xAF#8),
       some (.w 0xFF#8), some (.a 0x0E#8), some (.w 0xBF#8), some .r] := by rfl

theorem after_ident (s : State) : after .ident s = respond 0 (identify s) := rfl
theorem after_init (s : State) : after .init s = respond 0 (initialise s) := rfl

set_option maxRecDepth 4000 in
theorem reads_in_a_run : readCount (identCycles Params.vectors) = 94 := by rfl

/-- A run with these parameters folds the bytes the chip side gives, where it can give only those. -/
theorem run_reads {e : Psg} {xs : List Byte}
    (hg : ∀ bs : List Byte, bs.length = 94 → e.Gives bs → bs = xs) :
    (identify (start e)).hash = xs.foldl foldByte 7#32 := by
  obtain ⟨bs, hl, hgive, he⟩ :=
    runCycles_rest (identCycles Params.vectors) (s := seedRun (clearIddone (start e))) (d := 0xA5#8) rfl
  have h : (identify (start e)).hash = (runCycles (identCycles Params.vectors) (seedRun (clearIddone (start e)))).hash := by
    simp only [identify, setIddone_hash, classifyHash_hash]; rfl
  rw [h, he, hg bs (hl.trans reads_in_a_run) hgive]
  rfl

/-- What the fixture Mask16 answers in a run (V47). -/
def mask16 : List Byte :=
  let low := [0xFF#8, 0x0F#8, 0xFF#8, 0x0F#8, 0xFF#8, 0x0F#8, 0x1F#8]
  let sweepA := low ++ [0x3F#8, 0x1F#8, 0x1F#8, 0x1F#8, 0xFF#8, 0xFF#8, 0x0F#8, 0xFF#8, 0xFF#8]
  let sweepB := low ++ [0xFF#8, 0x1F#8, 0x1F#8, 0x1F#8, 0xFF#8, 0xFF#8, 0xFF#8, 0xFF#8]
  sweepA ++ sweepA ++ sweepA ++ sweepA ++ sweepB ++ sweepB

set_option maxRecDepth 4000 in
theorem mask16_length : mask16.length = 94 := by rfl

set_option maxRecDepth 4000 in
theorem mask16_hash : mask16.foldl foldByte 7#32 = 0xC55E56E7#32 := by rfl

set_option maxRecDepth 4000 in
theorem absent_hash : (List.replicate 94 0xFF#8).foldl foldByte 7#32 = 0xF040E3E7#32 := by rfl

/-- V47: the hash of a run against a chip that answers so. -/
theorem test_ident_mask16 : (after .ident (start (.chip 0 mask16))).hash = 0xC55E56E7#32 := by
  rw [after_ident, respond_hash]
  refine (run_reads ?_).trans mask16_hash
  intro bs hl hg
  have hg' : mask16.take bs.length = bs.take mask16.length := hg
  rw [hl, mask16_length, ← mask16_length, List.take_length, mask16_length, ← hl, List.take_length] at hg'
  exact hg'.symm
/-- V40. -/
theorem test_ident_absent : (after .ident (start .absent)).hash = 0xF040E3E7#32 := by
  rw [after_ident, respond_hash]
  refine (run_reads (xs := List.replicate 94 0xFF#8) ?_).trans absent_hash
  intro bs hl hg
  exact List.eq_replicate_iff.2 ⟨hl, hg⟩

/-! ## INIT and the status reads -/

/-- V52: the default clock is set where there is none. -/
theorem test_init_sets_default_clock : (after .init (start .absent)).rclock = 1777777#32 := by
  have h : (identify (busSetup (busReset (start .absent)))).rclock = 0 := by rw [identify_rclock]; rfl
  have hb : (identify (busSetup (busReset (start .absent)))).board = Params.vectors := by rw [identify_board]; rfl
  rw [after_init, respond_rclock, initialise, defaultClock_eq, if_pos h, configureClock_rclock, hb]
  decide
/-- V54: a clock that was set stays. -/
theorem test_init_keeps_a_clock : (after .init clocked).rclock = 1777777#32 := by
  have h : (identify (busSetup (busReset clocked))).rclock = 1777777#32 := by rw [identify_rclock]; rfl
  rw [after_init, respond_rclock, initialise, defaultClock_eq, if_neg (by rw [h]; decide), h]
/-- V51, V53. -/
theorem test_gethash : (after .gethash (start .absent)).responses = [0x12345678#32] := by decide
/-- V50: bit 4 is 0 before any run; V58: 0x17 for an identified YM2149F. -/
theorem test_gettype :
    (after .gettype (start .absent)).responses = [0x0000000C#32] ∧
    (after .gettype { start .absent with ctype := 7#4, iddone := true }).responses = [0x00000017#32] := by decide
/-- V50, V54, V53. -/
theorem test_isready :
    (after .isready (start .absent)).responses = [0#32] ∧
    (after .isready { start .absent with ctype := 2#4, iddone := true }).responses = [1#32] ∧
    (after .isready { start .absent with ctype := 0#4, iddone := true }).responses = [0#32] := by decide

/-! ## Steps -/

/-- The word placed by `withFetchWord` is the one the next step runs. -/
theorem test_step_runs_the_word : (stepped ((start .absent).withFetchWord 32 0x40000000)).responses = [0xFF#32] := by decide
/-- R171: a power cycle loses the clock, and leaves the responses given. -/
theorem test_powerCycle :
    (powerCycle unset (after .getclk clocked)).rclock = 0 ∧
    (powerCycle unset (after .getclk clocked)).responses = [0x001B2071#32] := by decide
/-- P5: reserved words answer 0 and make no line event. -/
theorem test_step_reserved :
    (stepped ((start .absent).withFetchWord 32 0xC01AB3F0)).responses = [0#32] ∧
    (stepped ((start .absent).withFetchWord 32 0xC01AB3F0)).trace = [] := by decide

/-! ## Witnesses: states and operands that meet the hypotheses of the statements -/

/-- The vectors' parameters meet R6. -/
theorem vectors_valid : Params.vectors.Valid := by
  refine ⟨by decide, ⟨by decide, fun f h2 h3 => ?_⟩, by decide, by decide, by decide⟩
  simp only [Params.vectors] at h2 h3
  have hd : 1 ≤ 16000000 / f := (Nat.le_div_iff_mul_le (by omega)).2 (by omega)
  have hd' : 16000000 / f ≤ 16000000 := Nat.div_le_self _ _
  have ha : 1 ≤ 16000000 / (16000000 / f) := (Nat.le_div_iff_mul_le (by omega)).2 (by omega)
  have ha' : 16000000 / (16000000 / f) ≤ 16000000 := Nat.div_le_self _ _
  simp only [Params.vectors, Params.achieved, Params.divider, List.lookup_nil, Option.getD_none]
  omega

/-- A machine that a host hands words to. -/
def handed (ws : List Word) : State := issue ws (start .absent)

/-- For `WordsDecodeByOpcode`: words of every clause, with the operand bits all ones, the reserved ones with both ends. -/
theorem witness_WordsDecodeByOpcode :
    [0x1FFFFFFF#32, 0x2FFFFFFF#32, 0x3FFFFFFF#32, 0x4FFFFFFF#32, 0x5FFFFFFF#32, 0x6FFFFFFF#32, 0x7FFFFFFF#32,
      0x8FFFFFFF#32, 0x9FFFFFFF#32, 0xAFFFFFFF#32, 0xBFFFFFFF#32].map (· &&& 0xF0000000#32) =
      [0x10000000#32, 0x20000000#32, 0x30000000#32, 0x40000000#32, 0x50000000#32, 0x60000000#32, 0x70000000#32,
        0x80000000#32, 0x90000000#32, 0xA0000000#32, 0xB0000000#32] ∧
    ∀ w ∈ [0x00000000#32, 0x0FFFFFFF#32, 0xC0000000#32, 0xDFFFFFFF#32, 0xE0000000#32, 0xFFFFFFFF#32],
      w &&& 0xF0000000#32 ∈ [0x00000000#32, 0xC0000000#32, 0xD0000000#32, 0xE0000000#32, 0xF0000000#32] := by
  constructor <;> simp

/-- For `DecodeEncodeAgree`: the widest operand, and a word with ignored bits set. -/
theorem witness_DecodeEncodeAgree :
    (Instr.setclk 0x0FFFFFFF#32).wellFormed = true ∧ decode 0x2ABCDE07#32 = .ok (.addr 0x07#8) := by decide

/-- For `StepRunsTheDecodedCommand`. -/
theorem witness_StepRunsTheDecodedCommand :
    (handed [0x40123456#32, 0x10000000#32]).busy = false ∧
    (handed [0x40123456#32, 0x10000000#32]).host = 0x40123456#32 :: [0x10000000#32] ∧
    decode 0x40123456#32 = .ok .read := by decide

/-- For `ReservedWordsOnlyAnswerZero` and the last clause of `ResponseWords`: each reserved opcode. -/
theorem witness_ReservedWordsOnlyAnswerZero :
    ∀ w ∈ [0x00000000#32, 0xC01AB3F0#32, 0xDFFFFFFF#32, 0xE0000001#32, 0xF0000007#32],
      (handed [w]).busy = false ∧ (handed [w]).host = w :: [] ∧
      w.extractLsb' 28 4 ∈ [0x0#4, 0xC#4, 0xD#4, 0xE#4, 0xF#4] := by
  simp [handed, issue, start, State.powerOn]

/-- For `BusyPortAcceptsNothing`: a busy machine with a command waiting. -/
theorem witness_BusyPortAcceptsNothing : { handed [0x40000000#32] with busy := true }.busy = true := by decide

/-- For `NothingHappensWithoutACommand`. -/
theorem witness_NothingHappensWithoutACommand : clocked.host = [] := by decide

/-- For `EveryIssuedWordIsAnswered`: the words of P5 and of P2 in one list. -/
theorem witness_EveryIssuedWordIsAnswered :
    (handed [0x00000000#32, 0x60000000#32, 0x502625A0#32, 0xF0000007#32]).busy = false := by decide

/-- For every statement whose one hypothesis on the state is that its lines are at rest (`ResetPulsesTheResetLine`,
`AddrRunsAnAddressCycle`, `WriteRunsAWriteCycle`, `ReadSamplesOneByte`, `ChipSeesEachBusCommand`, `SegmentsOfTheBusCycles`,
`LinesStaySafeInEveryCommand`, `MinimumDurations`, `IdentRunsTheSequence`, `ChipSeesTheWholeRun`, `InitRunsItsFourSteps`). -/
theorem witness_lines_at_rest : (start .absent).lines.AtRest ∧ clocked.lines.AtRest := by decide

/-- For the two clauses of `ReadSamplesOneByte` on the byte. -/
theorem witness_ReadSamplesOneByte :
    (start .absent).psg = .absent ∧ (start (.chip 3 [0x00#8])).psg = .chip 3 (0x00#8 :: []) ∧
    (start (.chip 3 [0x00#8])).lines.AtRest := by decide

/-- For `WaitLastsAtLeastItsFloor`. -/
theorem witness_WaitLastsAtLeastItsFloor : 0 < Params.vectors.fCtrl := by decide

/-- For `PseudoCommandsAreTwoCommands`: both clauses. -/
theorem witness_PseudoCommandsAreTwoCommands :
    (handed [0x20000007#32, 0x30000038#32]).busy = false ∧ (handed [0x20000007#32, 0x30000038#32]).lines.AtRest ∧
    (handed [0x20000007#32, 0x30000038#32]).host = (Pseudo.wrreg 0x07#8 0x38#8).expand.map encode ∧
    (handed [0x200000FF#32, 0x40000000#32]).host = (Pseudo.rdreg 0xFF#8).expand.map encode := by decide

/-- For `SetclkConfiguresOnlyInBand`: both ends of the band, the two frequencies next to it, and the ends of the operand. -/
theorem witness_SetclkConfiguresOnlyInBand :
    (∀ f ∈ [1000000#32, 2000000#32], Params.vectors.clkMin ≤ f.toNat ∧ f.toNat ≤ Params.vectors.clkMax) ∧
    (∀ f ∈ [0#32, 999999#32, 2000001#32, 0x0FFFFFFF#32],
      f.toNat < 2 ^ 28 ∧ (f.toNat < Params.vectors.clkMin ∨ Params.vectors.clkMax < f.toNat)) := by
  simp [Params.vectors]

/-- For `AchievedClockIsExactAndNonzero`: both ends of the band, with the default divider. -/
theorem witness_AchievedClockIsExactAndNonzero :
    (start .absent).board.Valid ∧ (start .absent).board.InBand (1000000#32).toNat ∧
    (start .absent).board.InBand (2000000#32).toNat ∧ (start .absent).board.dividers = [] :=
  ⟨vectors_valid, by decide, by decide, rfl⟩

/-- For `OnlySetclkAndInitTouchTheClock`: a command of each side, and a running generator. -/
theorem witness_OnlySetclkAndInitTouchTheClock :
    (∀ f, Instr.ident ≠ .setclk f) ∧ Instr.ident ≠ .init ∧ clocked.clken = true := by simp [clocked]

/-- For `BusIgnoresTheClock`: the two premises on the chip side, at their bounds. -/
theorem witness_BusIgnoresTheClock :
    (start .absent).psg.Settled 1 ∧ (start (.chip 0 [0x38#8])).psg.Settled 1 ∧ (start .absent).psg.Settled 94 ∧
    (start (.chip 0 mask16)).psg.Settled 94 :=
  ⟨trivial, Nat.le_refl 1, trivial, mask16_length.ge⟩

/-- For `UndrivenByteHasNoEffect`: two machines that power up with different bytes in `DOUT`, now and in the past. -/
theorem witness_UndrivenByteHasNoEffect :
    (Lines.rest 0x00#8).seen = (start .absent).lines.seen ∧
    [TraceItem.set (Lines.rest 0x00#8)].map TraceItem.seen = [TraceItem.set (Lines.rest 0xA5#8)].map TraceItem.seen := by
  decide

/-- For the clauses of `PowerCycleForgetsTheBlock`: a machine that has run, and one that differs from it inside the block. -/
theorem witness_PowerCycleForgetsTheBlock :
    Inv clocked ∧ { clocked with hash := 0#32, clken := false }.board = clocked.board ∧
    { clocked with hash := 0#32, clken := false }.trace = clocked.trace :=
  ⟨⟨vectors_valid, by decide, by decide, nofun, by decide, by decide, by decide, by decide⟩, rfl, rfl⟩

/-- For `BusIgnoresTheClock`, `ResponseWords`, `ReadyGatesNothing` and `RegistersChangeOnlyInTheirCommands`, whose only
hypotheses say which command `i` is. -/
theorem witness_command_choices :
    (∃ a, Instr.addr 0xFF#8 = .addr a) ∧ (∃ d, Instr.write 0x00#8 = .write d) ∧ (∃ f, Instr.setclk 0#32 = .setclk f) ∧
    Instr.addr 0xFF#8 ≠ .ident ∧ Instr.addr 0xFF#8 ≠ .init ∧ Instr.addr 0xFF#8 ≠ .read := by simp

/-- For `TestPattern`: each clause. -/
theorem witness_TestPattern :
    (7 : Fin 16) = Params.vectors.regMixer ∧
    ((13 : Fin 16) ≠ Params.vectors.regMixer ∧ (13 : Fin 16) = Params.vectors.regModeBank) ∧
    ((15 : Fin 16) ≠ Params.vectors.regMixer ∧ (15 : Fin 16) ≠ Params.vectors.regModeBank) := by decide

/-- For `RunFollowsTheSequenceTable`. -/
theorem witness_RunFollowsTheSequenceTable : Params.vectors.ProbeOk := vectors_valid.2.2.2.1

/-- For the last clause of `RunCounts`. -/
theorem witness_RunCounts : mask16.length = 94 := mask16_length

/-- For `SameAnswersGiveTheSameHash`: two machines that differ in the clock and in the chips' later answers. -/
theorem witness_SameAnswersGiveTheSameHash :
    (start (.chip 0 (mask16 ++ [0x01#8]))).lines.AtRest ∧
    { clocked with psg := .chip 5 (mask16 ++ [0x02#8]) }.lines.AtRest ∧
    (start (.chip 0 (mask16 ++ [0x01#8]))).board = { clocked with psg := .chip 5 (mask16 ++ [0x02#8]) }.board ∧
    mask16.length = 94 ∧
    (start (.chip 0 (mask16 ++ [0x01#8]))).psg = .chip 0 (mask16 ++ [0x01#8]) ∧
    { clocked with psg := .chip 5 (mask16 ++ [0x02#8]) }.psg = .chip 5 (mask16 ++ [0x02#8]) :=
  ⟨⟨rfl, rfl, rfl⟩, ⟨rfl, rfl, rfl⟩, rfl, mask16_length, rfl, rfl⟩

/-- For `AbsentChipIsNotFound`. -/
theorem witness_AbsentChipIsNotFound :
    (start .absent).lines.AtRest ∧ (start .absent).board.Valid ∧ (start .absent).psg = .absent :=
  ⟨⟨rfl, rfl, rfl⟩, vectors_valid, rfl⟩

set_option maxRecDepth 4000 in
theorem zero_hash : (List.replicate 94 0x00#8).foldl foldByte 7#32 = 0x19EBC1C7#32 := by rfl

/-- For `ClassificationIsATableLookup`, either command being one of its two: a run whose hash the table has (V40), and one whose hash it has not (V48). -/
theorem witness_ClassificationIsATableLookup :
    Params.vectors.sigTable.lookup (after .ident (start .absent)).hash = some .notFound ∧
    Params.vectors.sigTable.lookup (after .ident (start (.chip 0 (List.replicate 94 0x00#8)))).hash = none := by
  constructor
  · rw [test_ident_absent]; decide
  · have h : (after .ident (start (.chip 0 (List.replicate 94 0x00#8)))).hash = 0x19EBC1C7#32 := by
      rw [after_ident, respond_hash]
      refine (run_reads (xs := List.replicate 94 0x00#8) ?_).trans zero_hash
      intro bs hl hg
      have hg' : (List.replicate 94 0x00#8).take bs.length = bs.take (List.replicate 94 0x00#8).length := hg
      rw [hl, List.length_replicate, ← hl, List.take_length, hl, List.take_replicate] at hg'
      exact hg'.symm
    rw [h]; decide

/-- For `InitGuarantees`: without a clock and with one. -/
theorem witness_InitGuarantees :
    ((start .absent).lines.AtRest ∧ (start .absent).board.Valid ∧
      ((start .absent).clken = true ↔ (start .absent).rclock ≠ 0)) ∧
    (clocked.lines.AtRest ∧ clocked.board.Valid ∧ (clocked.clken = true ↔ clocked.rclock ≠ 0)) :=
  ⟨⟨⟨rfl, rfl, rfl⟩, vectors_valid, by decide⟩, ⟨rfl, rfl, rfl⟩, vectors_valid, by decide⟩

/-- For `PowerOnMeetsTheInvariant`. -/
theorem witness_PowerOnMeetsTheInvariant : Params.vectors.Valid := vectors_valid

/-- For `EveryStepKeepsTheInvariant`: a clocked machine with a command waiting, and the step it takes. -/
theorem witness_EveryStepKeepsTheInvariant :
    Inv (issue [0x40000000#32] clocked) ∧ ∃ t, step (issue [0x40000000#32] clocked) = .next t := by
  refine ⟨⟨vectors_valid, by decide, by decide, nofun, by decide, by decide, by decide, by decide⟩, ?_⟩
  exact ⟨_, (step_command (i := .read) rfl rfl rfl).trans rfl⟩

end Sys2Proof.Tests
end

/-! The state family (10_state.md): what a command leaves unchanged, the bus while it runs, the invariant of a step, an
undriven `DOUT`, power-on and the chip types. -/

namespace Sys2Proof.Machine

/-! ## A command is its effect and then its response (R64) -/

/-- A command without its response: what it does to the state before it ends (R64). -/
def effect : Instr → State → State
  | .reset => busReset
  | .addr reg => busAddr reg
  | .write data => busWrite data
  | .read => busRead
  | .setclk freq => setClock freq
  | .getclk => id
  | .ident => identify
  | .init => initialise
  | .gethash => id
  | .gettype => id
  | .isready => id

/-- The response of a command, read off the state its effect leaves (R67). -/
def answer : Instr → State → Word
  | .read, s => byteResponse s.rdata
  | .getclk, s => s.rclock
  | .gethash, s => s.hash
  | .gettype, s => typeResponse s.iddone s.ctype
  | .isready, s => flagResponse (ready s)
  | .reset, _ => 0
  | .addr _, _ => 0
  | .write _, _ => 0
  | .setclk _, _ => 0
  | .ident, _ => 0
  | .init, _ => 0

/-- The end of a command: its response (R64). -/
def finish (i : Instr) (s : State) : State := respond (answer i s) s

/-- Every command completes: its effect, then its response (R60, R64, R150). -/
theorem exec_eq (i : Instr) (s : State) : exec i s = .next (finish i (effect i s)) := by
  cases i <;> rfl

/-! ## Frames: what a command leaves unchanged (10_state.md section 2) -/

/-- Outside an identification run its registers and flags stand still (R12, R13, R22, R26). -/
theorem effect_identification {i : Instr} (s : State) (hi : i ≠ .ident) (hn : i ≠ .init) :
    (effect i s).hash = s.hash ∧ (effect i s).ctype = s.ctype ∧ (effect i s).iddone = s.iddone ∧
      (effect i s).seq = s.seq := by
  cases i with
  | ident => exact absurd rfl hi
  | init => exact absurd rfl hn
  | setclk f => simp only [effect, setClock]; split <;> simp
  | _ => simp [effect, busReset_eq, busAddr_eq, busWrite_eq, busRead_eq]

/-- A command without a read cycle takes no byte from the chip (R11). -/
theorem effect_sampling {i : Instr} (s : State) (hr : i ≠ .read) (hi : i ≠ .ident) (hn : i ≠ .init) :
    (effect i s).rdata = s.rdata ∧ (effect i s).psg = s.psg := by
  cases i with
  | read => exact absurd rfl hr
  | ident => exact absurd rfl hi
  | init => exact absurd rfl hn
  | setclk f => simp only [effect, setClock]; split <;> simp
  | _ => simp [effect, busReset_eq, busAddr_eq, busWrite_eq]

/-- Only `SETCLK` and `INIT` reach the clock generator (R100). -/
theorem effect_clock {i : Instr} (s : State) (hc : ∀ f, i ≠ .setclk f) (hn : i ≠ .init) :
    (effect i s).rclock = s.rclock ∧ (effect i s).clkdiv = s.clkdiv ∧ (effect i s).clken = s.clken := by
  cases i with
  | setclk f => exact absurd rfl (hc f)
  | init => exact absurd rfl hn
  | _ => simp [effect, busReset_eq, busAddr_eq, busWrite_eq, busRead_eq]

/-- The status reads and `SETCLK` leave the bus alone (R102, R103, R143 to R145). -/
theorem effect_lines {i : Instr} (s : State)
    (h : i = .getclk ∨ i = .gethash ∨ i = .gettype ∨ i = .isready ∨ ∃ f, i = .setclk f) :
    (effect i s).lines = s.lines ∧ lineEvents (effect i s).trace = lineEvents s.trace := by
  obtain rfl | rfl | rfl | rfl | ⟨f, rfl⟩ := h
  case inr.inr.inr.inr => simp only [effect, setClock]; split <;> simp [lineEvents_append, lineEvents]
  all_goals exact ⟨rfl, rfl⟩

/-- No command changes the parameters, the host's further words, the generator's count or the moment. -/
theorem effect_surroundings (i : Instr) (s : State) :
    (effect i s).board = s.board ∧ (effect i s).host = s.host ∧ (effect i s).genCount = s.genCount ∧
      (effect i s).moment = s.moment := by
  cases i with
  | setclk f => simp only [effect, setClock]; split <;> simp
  | init => simp only [effect, initialise, defaultClock_eq]; split <;> simp [busSetup, busReset_eq]
  | _ => simp [effect, busReset_eq, busAddr_eq, busWrite_eq, busRead_eq]

/-- Settles O43: each clause is the frame lemma of its registers; the response changes none of them. -/
theorem registersChangeOnlyInTheirCommands : Obligations.RegistersChangeOnlyInTheirCommands := fun i s =>
  ⟨_, exec_eq i s, effect_identification s, effect_sampling s, effect_clock s, effect_lines s,
    effect_surroundings i s⟩

/-! ## The bus while a command runs (R25, R90) -/

section
variable (p : Params)

@[simp] theorem good_set (l : Lines) : (TraceItem.set l).Good p ↔ l.Safe := Iff.rfl
@[simp] theorem good_sample (b : Byte) : (TraceItem.sample b).Good p := trivial
@[simp] theorem good_clock (out : Option (Nat × Nat)) : (TraceItem.clock out).Good p := trivial

end

/-- A wait is counted out to at least its floor (R90). -/
@[simp] theorem waitItem_good (p : Params) (t : Nat) : (waitItem p t).Good p := by
  have hc : t * p.fCtrl ≤ ceilPeriods p t * 1000000000 := by
    rw [ceilPeriods, nsPerSecond]
    generalize t * p.fCtrl = n
    split <;> omega
  exact hc.trans (Nat.mul_le_mul_right _ (le_max_right 1 _))

/-- From `s` to `t` the bus saw only line events and waits that keep the rules, and `t` leaves it at rest (R25, R90). -/
structure CleanRun (s t : State) : Prop where
  board : t.board = s.board
  rest  : t.lines.AtRest
  timer : s.waitTimer = 0 → t.waitTimer = 0
  trace : ∃ tr, t.trace = s.trace ++ tr ∧ ∀ x ∈ tr, x.Good s.board

theorem CleanRun.refl {s : State} (h : s.lines.AtRest) : CleanRun s s where
  board := rfl
  rest := h
  timer := id
  trace := ⟨[], by simp⟩

theorem CleanRun.trans {s t u : State} (h : CleanRun s t) (h' : CleanRun t u) : CleanRun s u where
  board := h'.board.trans h.board
  rest := h'.rest
  timer := h'.timer ∘ h.timer
  trace := by
    obtain ⟨tr, ht, hg⟩ := h.trace
    obtain ⟨tr', ht', hg'⟩ := h'.trace
    refine ⟨tr ++ tr', by rw [ht', ht, List.append_assoc], fun x hx => ?_⟩
    exact (List.mem_append.1 hx).elim (hg x) fun hx => h.board ▸ hg' x hx

section
variable {s : State} (h : s.lines.AtRest)
include h

theorem busAddr_clean (a : Byte) : CleanRun s (busAddr a s) := by
  rw [busAddr_rest (lines_eq_rest h)]
  refine ⟨rfl, ⟨rfl, rfl, rfl⟩, fun _ => rfl, _, rfl, ?_⟩
  simp [addrTrace, setItem, Lines.Safe]

theorem busWrite_clean (d : Byte) : CleanRun s (busWrite d s) := by
  rw [busWrite_rest (lines_eq_rest h)]
  refine ⟨rfl, ⟨rfl, rfl, rfl⟩, fun _ => rfl, _, rfl, ?_⟩
  simp [writeTrace, setItem, Lines.Safe]

theorem busRead_clean : CleanRun s (busRead s) := by
  rw [busRead_rest (lines_eq_rest h)]
  refine ⟨rfl, ⟨rfl, rfl, rfl⟩, fun _ => rfl, _, rfl, ?_⟩
  simp [readTrace, setItem, Lines.Safe]

theorem busReset_clean : CleanRun s (busReset s) := by
  rw [busReset_rest (lines_eq_rest h)]
  refine ⟨rfl, ⟨rfl, rfl, rfl⟩, fun _ => rfl, _, rfl, ?_⟩
  simp [resetTrace, setItem, Lines.Safe]

theorem busSetup_clean : CleanRun s (busSetup s) := by
  obtain ⟨-, -, hrst⟩ := h
  refine ⟨rfl, ⟨rfl, rfl, hrst⟩, id, _, rfl, ?_⟩
  simp [Lines.Safe, hrst]

theorem configureClock_clean (f : Nat) : CleanRun s (configureClock f s) := by
  refine ⟨rfl, h, id, _, rfl, ?_⟩
  simp

theorem setClock_clean (freq : Word) : CleanRun s (setClock freq s) := by
  rw [setClock]
  split
  · exact configureClock_clean h _
  · exact .refl h

theorem defaultClock_clean : CleanRun s (defaultClock s) := by
  rw [defaultClock_eq]
  split
  · exact configureClock_clean h _
  · exact .refl h

theorem runCycle_clean (c : Cycle) : CleanRun s (runCycle c s) := by
  cases c with
  | a x =>
    obtain ⟨hb, hr, hw, ht⟩ := busAddr_clean h x
    exact ⟨hb, hr, hw, ht⟩
  | w x =>
    obtain ⟨hb, hr, hw, ht⟩ := busWrite_clean h x
    exact ⟨hb, hr, hw, ht⟩
  | r =>
    obtain ⟨hb, hr, hw, ht⟩ := busRead_clean h
    exact ⟨hb, hr, hw, ht⟩

end

theorem runCycles_clean (cs : List Cycle) : ∀ {s : State}, s.lines.AtRest → CleanRun s (runCycles cs s) := by
  induction cs with
  | nil => exact .refl
  | cons c cs ih => exact fun h => (runCycle_clean h c).trans (ih (runCycle_clean h c).rest)

theorem identify_clean {s : State} (h : s.lines.AtRest) : CleanRun s (identify s) := by
  have hrun := runCycles_clean (identCycles s.board) (s := seedRun (clearIddone s)) h
  rw [identify]
  generalize runCycles _ _ = t at hrun ⊢
  exact ⟨hrun.board, hrun.rest, hrun.timer, hrun.trace⟩

theorem initialise_clean {s : State} (h : s.lines.AtRest) : CleanRun s (initialise s) :=
  have hreset := busReset_clean h
  have hsetup := hreset.trans (busSetup_clean hreset.rest)
  have hident := hsetup.trans (identify_clean hsetup.rest)
  hident.trans (defaultClock_clean hident.rest)

/-- Every command keeps the bus rules from lines at rest (R25, R81, R90). -/
theorem effect_clean (i : Instr) {s : State} (h : s.lines.AtRest) : CleanRun s (effect i s) := by
  cases i with
  | reset => exact busReset_clean h
  | addr a => exact busAddr_clean h a
  | write d => exact busWrite_clean h d
  | read => exact busRead_clean h
  | setclk f => exact setClock_clean h f
  | ident => exact identify_clean h
  | init => exact initialise_clean h
  | getclk | gethash | gettype | isready => exact .refl h

theorem mem_lineEvents {l : Lines} {tr : List TraceItem} (h : l ∈ lineEvents tr) : .set l ∈ tr := by
  induction tr with
  | nil => cases h
  | cons x tr ih =>
    cases x with
    | set k =>
      obtain rfl | h := List.mem_cons.1 h
      · exact List.mem_cons_self
      · exact List.mem_cons_of_mem _ (ih h)
    | _ => exact List.mem_cons_of_mem _ (ih h)

/-- Settles O19: the line events of a clean run are safe ones. -/
theorem linesStaySafeInEveryCommand : Obligations.LinesStaySafeInEveryCommand := fun i s h =>
  have hc := effect_clean i h
  let ⟨tr, ht, hg⟩ := hc.trace
  ⟨_, tr, ⟨exec_eq i s, ht⟩, hc.rest, fun l hl => hg (.set l) (mem_lineEvents hl)⟩

/-! ## The invariant -/

/-- The clock clauses of the invariant (R23, R105), without the place of the generator's count, which is settled only when
the step ends. -/
def ClockOk (s : State) : Prop := (s.clken = true ↔ s.rclock ≠ 0) ∧ (s.clken = true → 0 < s.clkdiv.toNat)

/-- The identification clauses of the invariant (R13, R22, R26). -/
def IdentOk (s : State) : Prop :=
  (s.iddone = true → s.ctype = (s.board.classify s.hash).code) ∧ s.seq ≤ 348

/-- A board that meets R6 configures a clock that runs, for every request in its band (R105). -/
theorem configureClock_clockOk {s : State} {f : Nat} (hv : s.board.Valid) (hf : s.board.InBand f) :
    ClockOk (configureClock f s) := by
  obtain ⟨-, ⟨-, hd⟩, -⟩ := hv
  obtain ⟨hdiv, hdiv', hach, hach'⟩ := hd f (Nat.lt_succ_of_le hf.2) hf.1
  have hr : BitVec.ofNat 32 (s.board.achieved f) ≠ 0 := fun h => by
    have := congrArg BitVec.toNat h
    simp at this
    omega
  refine ⟨by simpa using hr, fun _ => ?_⟩
  simp
  omega

theorem setClock_clockOk {s : State} (freq : Word) (hv : s.board.Valid) (h : ClockOk s) :
    ClockOk (setClock freq s) := by
  rw [setClock]
  split
  case isTrue hf => exact configureClock_clockOk hv hf
  case isFalse => exact h

theorem defaultClock_clockOk {s : State} (hv : s.board.Valid) (h : ClockOk s) : ClockOk (defaultClock s) := by
  rw [defaultClock_eq]
  split
  · have ⟨⟨_, _, hband⟩, _⟩ := hv
    exact configureClock_clockOk hv hband
  · exact h

theorem initialise_clockOk {s : State} (hv : s.board.Valid) (h : ClockOk s) : ClockOk (initialise s) := by
  have hboard : (identify (busSetup (busReset s))).board = s.board := by simp [busSetup, busReset_eq]
  have hident : ClockOk (identify (busSetup (busReset s))) := by
    simpa [ClockOk, busSetup, busReset_eq] using h
  rw [initialise]
  refine defaultClock_clockOk ?_ hident
  rwa [hboard]

/-- Every command keeps the clock running, or off, as R23 says. -/
theorem effect_clockOk (i : Instr) {s : State} (hv : s.board.Valid) (h : ClockOk s) : ClockOk (effect i s) := by
  by_cases hset : ∃ f, i = .setclk f
  · obtain ⟨f, rfl⟩ := hset
    exact setClock_clockOk f hv h
  by_cases hinit : i = .init
  · subst hinit
    exact initialise_clockOk hv h
  obtain ⟨hr, hd, he⟩ := effect_clock s (not_exists.1 hset) hinit
  rwa [ClockOk, hr, hd, he]

/-- A sweep without the mode register has fifteen positions (R118). -/
theorem extSweep_length (p : Params) : (extSweep p).length = 15 := by
  rw [extSweep]
  generalize p.regModeBank = b
  revert b
  decide

/-- A run has 348 cycles, whatever the parameters (R121, R122). -/
theorem identCycles_length (p : Params) : (identCycles p).length = 348 := by
  simp [identCycles, plainProbe, latchProbe, extProbe, extSweep_length, sweep]

theorem identify_identOk (s : State) : IdentOk (identify s) := by
  obtain ⟨tr, -, -, -, hc, hs, -⟩ := identify_effect s
  exact ⟨fun _ => by rw [hc, identify_board], by rw [hs, identCycles_length]⟩

theorem defaultClock_identOk {s : State} (h : IdentOk s) : IdentOk (defaultClock s) := by
  rw [defaultClock_eq]
  split <;> exact h

theorem initialise_identOk (s : State) : IdentOk (initialise s) := by
  rw [initialise]
  exact defaultClock_identOk (identify_identOk _)

theorem effect_identOk (i : Instr) {s : State} (h : IdentOk s) : IdentOk (effect i s) := by
  by_cases hident : i = .ident
  · subst hident
    exact identify_identOk s
  by_cases hinit : i = .init
  · subst hinit
    exact initialise_identOk s
  obtain ⟨hh, hc, hd, hs⟩ := effect_identification s hident hinit
  rwa [IdentOk, hh, hc, hd, hs, (effect_surroundings i s).1]

/-- The invariant without the place of the generator's count: what holds inside a step, before `elapse` gives the count a
place below the divider (log entry 11). -/
structure PreInv (s : State) : Prop where
  board : s.board.Valid
  safe  : s.lines.Safe
  rest  : s.busy = false → s.lines.AtRest ∧ s.waitTimer = 0
  trace : ∀ x ∈ s.trace, x.Good s.board
  clock : ClockOk s
  ident : IdentOk s

theorem Inv.pre {s : State} (h : Inv s) : PreInv s where
  board := h.board
  safe := h.safe
  rest := h.rest
  trace := h.trace
  clock := ⟨h.clock, fun hen => Nat.zero_lt_of_lt (h.divider hen)⟩
  ident := ⟨h.ident, h.seq⟩

/-- The end of a step restores the invariant (R161). -/
theorem PreInv.elapse {s : State} (h : PreInv s) : Inv (elapse s) where
  board := h.board
  safe := h.safe
  rest := h.rest
  trace := h.trace
  clock := h.clock.1
  divider hen := by
    rw [elapse_clken] at hen
    rw [elapse_genCount, if_pos hen, elapse_clkdiv]
    exact Nat.mod_lt _ (h.clock.2 hen)
  ident := h.ident.1
  seq := h.ident.2

theorem Lines.AtRest.safe {l : Lines} (h : l.AtRest) : l.Safe := by
  obtain ⟨hp, hd, hr⟩ := h
  simp [Lines.Safe, hp, hd, hr]

/-- The effect of a command, begun at rest, keeps the invariant. -/
theorem PreInv.effect {s : State} (i : Instr) (h : PreInv s) (hr : s.lines.AtRest) (hw : s.waitTimer = 0) :
    PreInv (effect i s) where
  board := (effect_clean i hr).board ▸ h.board
  safe := (effect_clean i hr).rest.safe
  rest _ := ⟨(effect_clean i hr).rest, (effect_clean i hr).timer hw⟩
  trace := by
    obtain ⟨hb, -, -, tr, ht, hg⟩ := effect_clean i hr
    rw [ht, hb]
    exact fun x hx => (List.mem_append.1 hx).elim (h.trace x) (hg x)
  clock := effect_clockOk i h.board h.clock
  ident := effect_identOk i h.ident

/-- A word taken from the host is no part of the invariant. -/
theorem PreInv.accept {s : State} (rest : List Word) (h : PreInv s) : PreInv (accept rest s) where
  board := h.board
  safe := h.safe
  rest := nofun
  trace := h.trace
  clock := h.clock
  ident := h.ident

/-- A response leaves a state at rest within the invariant. -/
theorem PreInv.respond {s : State} (v : Word) (h : PreInv s) (hr : s.lines.AtRest) (hw : s.waitTimer = 0) :
    PreInv (respond v s) where
  board := h.board
  safe := h.safe
  rest _ := ⟨hr, hw⟩
  trace := h.trace
  clock := h.clock
  ident := h.ident

/-- What a step does, with what is left to `elapse` at its end: it passes, answers a reserved word, or runs a command. -/
theorem step_eq_elapse (s : State) : ∃ u, step s = .next (elapse u) ∧
    (u = s ∨ s.busy = false ∧ ∃ rest, u = reservedCommand (accept rest s) ∨
      ∃ i, u = finish i (effect i (accept rest s))) := by
  cases hb : s.busy with
  | true => exact ⟨s, step_busy hb, .inl rfl⟩
  | false =>
    cases hh : s.host with
    | nil => exact ⟨s, step_idle hh, .inl rfl⟩
    | cons w rest =>
      cases hd : decode w with
      | error e => exact ⟨_, step_reserved hb hh hd, .inr ⟨rfl, rest, .inl rfl⟩⟩
      | ok i =>
        refine ⟨_, ?_, .inr ⟨rfl, rest, .inr ⟨i, rfl⟩⟩⟩
        rw [step_command hb hh hd, exec_eq]
        rfl

/-- Settles O46: what a step does before `elapse` keeps all of the invariant but the generator's count. -/
theorem everyStepKeepsTheInvariant : Obligations.EveryStepKeepsTheInvariant := by
  intro s t h hst
  obtain ⟨u, hu, hcases⟩ := step_eq_elapse s
  obtain rfl : elapse u = t := Host.Outcome.next.inj (hu.symm.trans hst)
  refine PreInv.elapse ?_
  obtain rfl | ⟨hb, rest, rfl | ⟨i, rfl⟩⟩ := hcases
  · exact h.pre
  · obtain ⟨hr, hw⟩ := h.rest hb
    exact (h.pre.accept rest).respond 0 hr hw
  · obtain ⟨hr, hw⟩ := h.rest hb
    have hc := effect_clean i (s := accept rest s) hr
    exact ((h.pre.accept rest).effect i hr hw).respond _ hc.rest (hc.timer hw)

/-! ## An undriven `DOUT` (R19) -/

/-- An update that neither reads nor writes the lines and the trace. -/
def IgnoresBus (g : State → State) : Prop :=
  ∀ (s : State) (l : Lines) (tr : List TraceItem),
    g { s with lines := l, trace := tr } = { g s with lines := l, trace := tr }

/-- The answer to a command does not look at the lines or the trace, so its end does not either. -/
theorem finish_ignoresBus (i : Instr) : IgnoresBus (finish i) := by
  intro s l tr
  cases i <;> rfl

namespace SeenAlike

variable {s t : State} (h : SeenAlike s t)
include h

/-- Such an update keeps two machines alike. -/
theorem ignoringBus {g : State → State} (hg : IgnoresBus g) : SeenAlike (g s) (g t) := by
  have hs : g s = { g s with lines := s.lines, trace := s.trace } := hg s s.lines s.trace
  have ht : g t = { g s with lines := t.lines, trace := t.trace } := h.rest ▸ hg s t.lines t.trace
  rw [hs, ht]
  exact ⟨h.lines, h.trace, rfl⟩

theorem configureClock (f : Nat) : SeenAlike (configureClock f s) (configureClock f t) where
  lines := h.lines
  trace := by rw [h.rest]; simp [h.trace]
  rest := by rw [h.rest]; rfl

theorem setClock (freq : Word) : SeenAlike (setClock freq s) (setClock freq t) := by
  have hb : t.board = s.board := by rw [h.rest]
  rw [Machine.setClock, Machine.setClock, hb]
  split
  · exact h.configureClock _
  · exact h

theorem defaultClock : SeenAlike (defaultClock s) (defaultClock t) := by
  have hb : t.board = s.board := by rw [h.rest]
  have hr : t.rclock = s.rclock := by rw [h.rest]
  rw [defaultClock_eq, defaultClock_eq, hb, hr]
  split
  · exact h.configureClock _
  · exact h

theorem runCycle (c : Cycle) : SeenAlike (runCycle c s) (runCycle c t) := by
  cases c with
  | a x => exact (h.busAddr x).ignoringBus (g := advanceSeq) fun _ _ _ => rfl
  | w x => exact (h.busWrite x).ignoringBus (g := advanceSeq) fun _ _ _ => rfl
  | r => exact h.busRead.ignoringBus (g := advanceSeq ∘ foldHash) fun _ _ _ => rfl

omit h in
theorem runCycles (cs : List Cycle) : ∀ {s t : State}, SeenAlike s t → SeenAlike (runCycles cs s) (runCycles cs t) := by
  induction cs with
  | nil => exact id
  | cons c cs ih => exact fun h => ih (h.runCycle c)

theorem identify : SeenAlike (identify s) (identify t) := by
  have hb : t.board = s.board := by rw [h.rest]
  have hstart : SeenAlike (seedRun (clearIddone s)) (seedRun (clearIddone t)) :=
    h.ignoringBus (g := seedRun ∘ clearIddone) fun _ _ _ => rfl
  rw [Machine.identify, Machine.identify, hb]
  exact (hstart.runCycles _).ignoringBus (g := setIddone ∘ classifyHash) fun _ _ _ => rfl

theorem initialise : SeenAlike (initialise s) (initialise t) :=
  h.busReset.busSetup.identify.defaultClock

/-- Every command does the same to two machines that differ only in what the chip cannot see. -/
theorem effect (i : Instr) : SeenAlike (effect i s) (effect i t) := by
  cases i with
  | reset => exact h.busReset
  | addr a => exact h.busAddr a
  | write d => exact h.busWrite d
  | read => exact h.busRead
  | setclk f => exact h.setClock f
  | ident => exact h.identify
  | init => exact h.initialise
  | getclk | gethash | gettype | isready => exact h

end SeenAlike

/-- Settles O47: the two machines are alike to the chip before the command, through its effect and after its response. -/
theorem undrivenByteHasNoEffect : Obligations.UndrivenByteHasNoEffect := by
  intro i s l past hl hp
  have h : SeenAlike s { s with lines := l, trace := past } := ⟨hl.symm, hp.symm, rfl⟩
  have hfin := (h.effect i).ignoringBus (finish_ignoresBus i)
  exact ⟨_, _, exec_eq i _, exec_eq i _, hfin.lines.symm, hfin.trace.symm, hfin.rest⟩

/-! ## Power-on (R30) -/

/-- The default divider of R5 meets R6 where the band lies between 1 Hz and an oscillator of at most 32 bits. -/
theorem dividerOk_of_default {p : Params} (hd : p.dividers = []) (hmin : 1 ≤ p.clkMin) (hmax : p.clkMax ≤ p.fOsc)
    (hosc : 0 < p.fOsc) (hfit : p.fOsc < 2 ^ 32) : p.DividerOk := by
  refine ⟨hosc, fun f hf hf' => ?_⟩
  have hdiv : p.divider f = p.fOsc / f := by simp [Params.divider, hd]
  have hpos : 1 ≤ p.fOsc / f := (Nat.one_le_div_iff (by omega)).2 (by omega)
  have hach : 1 ≤ p.fOsc / (p.fOsc / f) := (Nat.one_le_div_iff hpos).2 (Nat.div_le_self _ _)
  rw [Params.achieved, hdiv]
  exact ⟨hpos, (Nat.div_le_self _ _).trans_lt hfit, hach, (Nat.div_le_self _ _).trans_lt hfit⟩

/-- The machine after reset has parameters that meet R6 (log entry 4). -/
theorem board_valid : board.Valid := by
  rw [board]
  split
  case isTrue h => exact h
  case isFalse =>
    exact ⟨by decide, dividerOk_of_default rfl (by decide) (by decide) (by decide) (by decide), by decide, by decide,
      by decide⟩

theorem powerOn_inv {p : Params} (hp : p.Valid) (v : PowerOnValues) (e : Psg) : Inv (State.powerOn p v e) where
  board := hp
  safe := Lines.AtRest.safe ⟨rfl, rfl, rfl⟩
  rest _ := ⟨⟨rfl, rfl, rfl⟩, rfl⟩
  trace := nofun
  clock := by simp [State.powerOn]
  divider := nofun
  ident := nofun
  seq := Nat.le_of_lt_succ v.seq.isLt

/-- Settles O45: `CLKEN = 0` and `IDDONE = 0` empty the clauses on the values that R30 leaves unspecified, all but the bound
on `SEQ`, which its type gives. -/
theorem powerOnMeetsTheInvariant : Obligations.PowerOnMeetsTheInvariant :=
  ⟨fun _ v e hp => powerOn_inv hp v e, powerOn_inv board_valid _ _⟩

/-- Nothing is ready before an identification run (R27). -/
theorem ready_of_iddone {s : State} (h : s.iddone = false) : ready s = false := by
  simp [ready, h]

/-- Settles O12: `State.powerOn` writes the values of R30's table, and `READY` follows from `IDDONE`. -/
theorem powerOnState : Obligations.PowerOnState :=
  ⟨fun _ _ _ => ⟨rfl, rfl, rfl, rfl, rfl, rfl, rfl, ready_of_iddone rfl, rfl, rfl, rfl, rfl, rfl, rfl⟩,
    ⟨rfl, rfl, rfl⟩, rfl, rfl, rfl, rfl, ready_of_iddone rfl⟩

end Sys2Proof.Machine

namespace Sys2Proof

/-! ## The codes of the chip types (R16) -/

/-- The nine chip types in the document's order. -/
def ChipType.inOrder : List ChipType :=
  [.notFound, .badOrUnknown, .compatible, .ay38910A, .ay38912A, .ay38913A, .ay8930, .ym2149F, .emulatorFirmware]

/-- A type's code is its place in the document's order. -/
theorem ChipType.inOrder_code (x : ChipType) : inOrder[x.code.toNat]? = some x := by
  cases x <;> rfl

theorem ChipType.code_injective : Function.Injective code := fun x y h =>
  Option.some.inj ((inOrder_code x).symm.trans (h ▸ inOrder_code y))

theorem ChipType.code_le (x : ChipType) : x.code.toNat ≤ 8 :=
  Nat.le_of_lt_succ (List.getElem?_eq_some_iff.1 (inOrder_code x)).1

/-- The code of the type at each of the nine places is that place. -/
theorem ChipType.code_inOrder : ∀ c : BitVec 4, c.toNat ≤ 8 → inOrder[c.toNat]?.map code = some c := by
  decide

/-- Settles O29: codes and places in the document's order determine each other. -/
theorem chipTypeCodes : Obligations.ChipTypeCodes := by
  refine ⟨rfl, rfl, rfl, rfl, rfl, rfl, rfl, rfl, rfl, fun _ _ h => ChipType.code_injective h, fun c => ⟨?_, ?_⟩⟩
  · intro h
    obtain ⟨x, -, hx⟩ := Option.map_eq_some_iff.1 (ChipType.code_inOrder c h)
    exact ⟨x, hx⟩
  · rintro ⟨x, rfl⟩
    exact x.code_le

end Sys2Proof

/-! The memory family (20_memory.md): what the chip sees of a bus cycle, and an identification run with no chip on the bus. -/

namespace Sys2Proof.Machine

/-! ## The segments of a bus cycle and its event (R41, R42, R43, R45; R93) -/

section
variable (p : Params) (d : Byte) (t : Nat) (tr : List TraceItem)

/-- An address cycle from rest ends on lines at rest that have only just begun to be held (R82). -/
theorem segments_addrTrace (a : Byte) :
    segments (Lines.rest d) t (addrTrace p a ++ tr) =
      ⟨Lines.rest d, t⟩ :: ⟨⟨.idle, true, a, false⟩, 0⟩ :: ⟨⟨.addr, true, a, false⟩, tAS⟩ ::
        ⟨⟨.idle, true, a, false⟩, tAH⟩ :: segments (Lines.rest a) 0 tr := by
  simp [addrTrace, setItem, waitItem, segments, Lines.rest, tAS, tAH]

/-- A write cycle likewise (R84). -/
theorem segments_writeTrace (x : Byte) :
    segments (Lines.rest d) t (writeTrace p x ++ tr) =
      ⟨Lines.rest d, t⟩ :: ⟨⟨.idle, true, x, false⟩, 0⟩ :: ⟨⟨.write, true, x, false⟩, tDW⟩ ::
        ⟨⟨.idle, true, x, false⟩, tDH⟩ :: segments (Lines.rest x) 0 tr := by
  simp [writeTrace, setItem, waitItem, segments, Lines.rest, tDW, tDH]

/-- A read cycle ends on lines at rest that have been held for `T_TS`; what follows may hold them longer (R86). -/
theorem segments_readTrace (b : Byte) :
    segments (Lines.rest d) t (readTrace p d b ++ tr) =
      ⟨Lines.rest d, t⟩ :: ⟨⟨.read, false, d, false⟩, tDA⟩ :: segments (Lines.rest d) tTS tr := by
  simp [readTrace, setItem, waitItem, segments, Lines.rest, tDA, tTS]

/-- The first line event of a reset cycle from rest changes nothing, so it begins no segment (R88, R93). -/
theorem segments_resetTrace :
    segments (Lines.rest d) t (resetTrace p d ++ tr) =
      ⟨Lines.rest d, t⟩ :: ⟨⟨.idle, false, d, true⟩, tRW⟩ :: segments (Lines.rest d) tRB tr := by
  simp [resetTrace, setItem, waitItem, segments, Lines.rest, tRW, tRB]

end

/-- The segment a trace begins in is held at least as long as it was held before. -/
theorem segments_head (l : Lines) (tr : List TraceItem) :
    ∀ t, ∃ t' rest, t ≤ t' ∧ segments l t tr = ⟨l, t'⟩ :: rest := by
  induction tr with
  | nil => exact fun t => ⟨t, [], le_rfl, rfl⟩
  | cons x tr ih =>
    intro t
    cases x with
    | set k =>
      rw [segments]
      split
      · exact ih t
      · exact ⟨t, _, le_rfl, rfl⟩
    | wait f k =>
      obtain ⟨t', rest, hle, h⟩ := ih (t + f)
      exact ⟨t', rest, by omega, h⟩
    | sample b => exact ih t
    | clock out => exact ih t

/-- An event is decided by a segment and the lines and time of the one after it. -/
theorem segmentEvents_cons_segments (x : Segment) (l : Lines) (t : Nat) (tr : List TraceItem) :
    ∃ t', t ≤ t' ∧
      segmentEvents (x :: segments l t tr) = eventAt x ⟨l, t'⟩ ++ segmentEvents (segments l t tr) := by
  obtain ⟨t', rest, hle, h⟩ := segments_head l tr t
  exact ⟨t', hle, by rw [h, segmentEvents]⟩

/-- Nothing follows the last segment, so it makes no event. -/
@[simp] theorem segmentEvents_segments_nil (l : Lines) (t : Nat) : segmentEvents (segments l t []) = [] := rfl

/-- An idle bus without reset begins no event. -/
theorem eventAt_idle {x : Segment} (y : Segment) (hp : x.lines.phase = .idle) (hr : x.lines.rst = false) :
    eventAt x y = [] := by
  simp [eventAt, hp, hr]

/-- Of an idle bus without reset the chip sees nothing. -/
theorem segmentEvents_idle {x : Segment} (l : Lines) (t : Nat) (tr : List TraceItem) (hp : x.lines.phase = .idle)
    (hr : x.lines.rst = false) :
    segmentEvents (x :: segments l t tr) = segmentEvents (segments l t tr) := by
  obtain ⟨t', -, h⟩ := segmentEvents_cons_segments x l t tr
  rw [h, eventAt_idle _ hp hr, List.nil_append]

section
variable (p : Params) (d : Byte) (t : Nat) (tr : List TraceItem)

/-- Of an address cycle the chip sees one latched address (R41). -/
theorem segmentEvents_addrTrace (a : Byte) :
    segmentEvents (segments (Lines.rest d) t (addrTrace p a ++ tr)) =
      .onAddr a :: segmentEvents (segments (Lines.rest a) 0 tr) := by
  rw [segments_addrTrace, segmentEvents, segmentEvents, segmentEvents, segmentEvents_idle _ _ _ rfl rfl,
    eventAt_idle _ rfl rfl, eventAt_idle _ rfl rfl]
  simp [eventAt]

/-- Of a write cycle the chip sees one byte written (R42). -/
theorem segmentEvents_writeTrace (x : Byte) :
    segmentEvents (segments (Lines.rest d) t (writeTrace p x ++ tr)) =
      .onWrite x :: segmentEvents (segments (Lines.rest x) 0 tr) := by
  rw [segments_writeTrace, segmentEvents, segmentEvents, segmentEvents, segmentEvents_idle _ _ _ rfl rfl,
    eventAt_idle _ rfl rfl, eventAt_idle _ rfl rfl]
  simp [eventAt]

/-- Of a read cycle the chip sees one read (R43). -/
theorem segmentEvents_readTrace (b : Byte) :
    segmentEvents (segments (Lines.rest d) t (readTrace p d b ++ tr)) =
      .onRead :: segmentEvents (segments (Lines.rest d) tTS tr) := by
  obtain ⟨t', hle, h⟩ := segmentEvents_cons_segments ⟨⟨.read, false, d, false⟩, tDA⟩ (Lines.rest d) tTS tr
  rw [segments_readTrace, segmentEvents, eventAt_idle _ rfl rfl, h]
  simp [eventAt, Lines.rest, hle]

/-- Of a reset cycle the chip sees one reset (R45). -/
theorem segmentEvents_resetTrace :
    segmentEvents (segments (Lines.rest d) t (resetTrace p d ++ tr)) =
      .onReset :: segmentEvents (segments (Lines.rest d) tRB tr) := by
  obtain ⟨t', hle, h⟩ := segmentEvents_cons_segments ⟨⟨.idle, false, d, true⟩, tRW⟩ (Lines.rest d) tRB tr
  rw [segments_resetTrace, segmentEvents, eventAt_idle _ rfl rfl, h]
  simp [eventAt, Lines.rest, hle]

end

/-- A command completes, and what it shows the chip is what its effect adds to the trace: the response adds nothing. -/
theorem runs_seeing {i : Instr} {s : State} {tr : List TraceItem} {events : List PsgEvent}
    (ht : (effect i s).trace = s.trace ++ tr) (he : psgEvents s.lines tr = events) :
    ∃ t tr, Runs i s t tr ∧ psgEvents s.lines tr = events :=
  ⟨_, tr, ⟨exec_eq i s, ht⟩, he⟩

/-- Settles O17: from lines at rest each command adds the trace of its one bus cycle, which makes one event. -/
theorem chipSeesEachBusCommand : Obligations.ChipSeesEachBusCommand := by
  intro s hs
  obtain ⟨d, h⟩ : ∃ d, s.lines = Lines.rest d := ⟨_, lines_eq_rest hs⟩
  refine ⟨fun a => runs_seeing (tr := addrTrace s.board a) (by rw [effect, busAddr_rest h]) ?_,
    fun x => runs_seeing (tr := writeTrace s.board x) (by rw [effect, busWrite_rest h]) ?_,
    runs_seeing (tr := readTrace s.board d (readByte s)) (by rw [effect, busRead_rest h]) ?_,
    runs_seeing (tr := resetTrace s.board d) (by rw [effect, busReset_rest h]) ?_⟩ <;>
    rw [h, psgEvents]
  · simpa using segmentEvents_addrTrace s.board d 0 [] a
  · simpa using segmentEvents_writeTrace s.board d 0 [] x
  · simpa using segmentEvents_readTrace s.board d 0 [] (readByte s)
  · simpa using segmentEvents_resetTrace s.board d 0 []

/-! ## An identification run from lines at rest, and with no chip (R44, R120, R125) -/

theorem readCount_append (cs cs' : List Cycle) : readCount (cs ++ cs') = readCount cs + readCount cs' := by
  induction cs with
  | nil => simp [readCount]
  | cons c cs ih => rw [List.cons_append, readCount_cons, ih, readCount_cons c cs, Nat.add_assoc]

/-- A sweep that makes `n` reads at each of its positions. -/
theorem readCount_flatMap {α : Type} {f : α → List Cycle} {n : Nat} (hf : ∀ x, readCount (f x) = n) (xs : List α) :
    readCount (xs.flatMap f) = xs.length * n := by
  induction xs with
  | nil => simp [readCount]
  | cons x xs ih => rw [List.flatMap_cons, readCount_append, hf, ih, List.length_cons, Nat.succ_mul, Nat.add_comm]

theorem sweep_length : sweep.length = 16 := List.length_finRange

theorem readCount_plainProbe (p : Params) (base : Byte) : readCount (plainProbe p base) = 16 := by
  rw [plainProbe, readCount_append, readCount_flatMap (n := 0) fun _ => rfl, readCount_flatMap (n := 1) fun _ => rfl,
    sweep_length]

theorem readCount_latchProbe (p : Params) (base : Byte) : readCount (latchProbe p base) = 16 := by
  rw [latchProbe, readCount_flatMap (n := 1) fun _ => rfl, sweep_length]

theorem readCount_extProbe (p : Params) (sel : Byte) : readCount (extProbe p sel) = 15 := by
  rw [extProbe, readCount_append, readCount_append, readCount_flatMap (n := 0) fun _ => rfl,
    readCount_flatMap (n := 1) fun _ => rfl, extSweep_length]
  rfl

/-- A run has 94 reads, whatever the parameters (R122). -/
theorem readCount_identCycles (p : Params) : readCount (identCycles p) = 94 := by
  simp only [identCycles, readCount_append, readCount_plainProbe, readCount_latchProbe, readCount_extProbe]

/-- Everything an identification run does from lines at rest (R120): 94 bytes that the chip side gives are folded from the
seed, the trace is the one the 348 cycles prescribe, and the hash is classified. -/
theorem identify_rest {s : State} {d : Byte} (h : s.lines = Lines.rest d) :
    ∃ bs : List Byte, bs.length = 94 ∧ s.psg.Gives bs ∧
      identify s =
        { s with rdata := bs.getLast?.getD s.rdata, hash := bs.foldl foldByte hashSeed,
                 ctype := (s.board.classify (bs.foldl foldByte hashSeed)).code, iddone := true, seq := 348,
                 lines := Lines.rest (lastDriven d (identCycles s.board)), waitTimer := 0,
                 trace := s.trace ++ cyclesTrace s.board d (identCycles s.board) bs,
                 psg := s.psg.answeredTimes 94 } := by
  obtain ⟨bs, hl, hg, he⟩ := runCycles_rest (identCycles s.board) (s := seedRun (clearIddone s)) h
  have hne : (identCycles s.board).isEmpty = false :=
    List.isEmpty_eq_false_iff.2 (List.ne_nil_of_length_pos (by rw [identCycles_length]; decide))
  refine ⟨bs, hl.trans (readCount_identCycles _), hg, ?_⟩
  rw [identify, he, identCycles_length, readCount_identCycles, hne]
  simp [seedRun, clearIddone, classifyHash, setIddone]

set_option maxRecDepth 4000 in
/-- The hash of 94 reads of the pull-ups (R125). -/
theorem hash_absent : (List.replicate 94 0xFF#8).foldl foldByte hashSeed = hAbsent := by rfl

/-- The signature table of a board that meets R6 has `H_ABSENT` as `NotFound`. -/
theorem classify_hAbsent {p : Params} (hv : p.Valid) : p.classify hAbsent = .notFound := by
  obtain ⟨-, -, -, -, -, -, hlookup⟩ := hv
  rw [Params.classify, hlookup, Option.getD_some]

/-- A chip that was not found is not ready (R27, R151). -/
theorem ready_of_notFound {s : State} (h : s.ctype = ChipType.notFound.code) : ready s = false := by
  simp [ready, h]

/-- Settles O38: with no chip the 94 bytes of the run are all 0xFF. -/
theorem absentChipIsNotFound : Obligations.AbsentChipIsNotFound := by
  intro s hs hv hp
  obtain ⟨bs, hlen, hgives, hrun⟩ := identify_rest (lines_eq_rest hs)
  rw [hp] at hgives
  obtain rfl : bs = List.replicate 94 0xFF#8 := List.eq_replicate_iff.2 ⟨hlen, hgives⟩
  rw [hash_absent, classify_hAbsent hv] at hrun
  refine ⟨_, exec_eq .ident s, ?_⟩
  rw [effect, hrun]
  exact ⟨rfl, rfl, rfl, ready_of_notFound rfl, rfl⟩

end Sys2Proof.Machine

/-! The encoding family (30_encoding.md): what the decoder reads out of a word, the encoder after it, the command port,
the responses, and the pseudo-commands. -/

namespace Sys2Proof

/-! ## The fields of a word (R62) -/

@[simp] theorem opField_append (op : BitVec 4) (arg : BitVec 28) : opField (op ++ arg) = op :=
  BitVec.extractLsb'_append_eq_left

@[simp] theorem argField_append (op : BitVec 4) (arg : BitVec 28) : argField (op ++ arg) = arg :=
  BitVec.extractLsb'_append_eq_right

theorem opField_and (v w : Word) : opField (v &&& w) = opField v &&& opField w :=
  BitVec.extractLsb'_and

theorem argField_and (v w : Word) : argField (v &&& w) = argField v &&& argField w :=
  BitVec.extractLsb'_and

/-- A word is its two fields. -/
theorem fields_append (w : Word) : opField w ++ argField w = w :=
  BitVec.extractLsb'_append_extractLsb'

theorem word_ext {v w : Word} (hop : opField v = opField w) (harg : argField v = argField w) : v = w := by
  rw [← fields_append v, hop, harg, fields_append]

/-- The mask of the opcode map keeps `op` (R63). -/
theorem opField_mask (w : Word) : opField (w &&& 0xF0000000#32) = opField w := by
  rw [opField_and]
  exact BitVec.and_allOnes

/-! ## The decoder (R63, R65, R66, R68 to R70) -/

/-- The operands of a command are the ones the rules cut out of the word (R65, R66); a command without an operand takes
nothing from `arg` (R69). -/
def Instr.CutFrom (w : Word) : Instr → Prop
  | .addr reg => reg = argByte w
  | .write data => data = argByte w
  | .setclk freq => freq = argFreq w
  | .reset => True
  | .read => True
  | .getclk => True
  | .ident => True
  | .init => True
  | .gethash => True
  | .gettype => True
  | .isready => True

/-- A word is a command exactly when its `op` is the command's and its `arg` holds the command's operands. -/
theorem decode_eq_ok_iff {w : Word} {i : Instr} : decode w = .ok i ↔ opField w = i.opcode ∧ i.CutFrom w := by
  constructor
  · intro h
    unfold decode at h
    split at h
    case h_12 => cases h
    all_goals
      obtain rfl := Except.ok.inj h
      exact ⟨BitVec.eq_of_toNat_eq ‹_›, by simp [Instr.CutFrom]⟩
  · rintro ⟨hop, hcut⟩
    cases i <;> simp_all [decode, Instr.opcode, Instr.CutFrom]

/-- A word whose `op` is reserved is rejected by that `op` (R68). -/
theorem decode_reserved {w : Word} (h : opField w ∈ [0x0#4, 0xC#4, 0xD#4, 0xE#4, 0xF#4]) :
    decode w = .error (.reservedOp (opField w)) := by
  simp only [List.mem_cons, List.not_mem_nil, or_false] at h
  obtain h | h | h | h | h := h <;> simp [decode, h]

/-- A word that the mask takes to a row's pattern is that row's command (R63). -/
theorem decode_of_mask {w p : Word} {i : Instr} (hop : opField p = i.opcode) (hcut : i.CutFrom w)
    (h : w &&& 0xF0000000#32 = p) : decode w = .ok i := by
  rw [decode_eq_ok_iff, ← opField_mask, h]
  exact ⟨hop, hcut⟩

/-- Settles O1: each row's pattern has the opcode of the row's command, and the mask keeps `op`. -/
theorem wordsDecodeByOpcode : Obligations.WordsDecodeByOpcode := fun w =>
  ⟨decode_of_mask rfl trivial,
    decode_of_mask rfl (argByte_eq w).symm,
    decode_of_mask rfl (argByte_eq w).symm,
    decode_of_mask rfl trivial,
    decode_of_mask rfl (argFreq_eq w).symm,
    decode_of_mask rfl trivial,
    decode_of_mask rfl trivial,
    decode_of_mask rfl trivial,
    decode_of_mask rfl trivial,
    decode_of_mask rfl trivial,
    decode_of_mask rfl trivial,
    fun h => decode_reserved (opField_mask w ▸ List.mem_map_of_mem (f := opField) h)⟩

/-! ## The encoder after the decoder (R62, R69) -/

/-- A byte operand comes back from the field it was written to (R65). -/
theorem argByte_append (op : BitVec 4) (b : Byte) : argByte (op ++ b.setWidth 28) = b := by
  rw [argByte, argField_append, BitVec.extractLsb'_setWidth_of_le (by decide)]
  exact BitVec.extractLsb'_eq_self

/-- A frequency below 2^28 comes back from the field it was written to (R66). -/
theorem argFreq_append (op : BitVec 4) {freq : Word} (h : freq.toNat < 2 ^ 28) :
    argFreq (op ++ freq.setWidth 28) = freq := by
  apply BitVec.eq_of_toNat_eq
  rw [argFreq, argField_append, BitVec.toNat_setWidth, BitVec.toNat_setWidth]
  omega

/-- The encoder puts the operands of a well-formed command where the decoder cuts them out. -/
theorem cutFrom_encode {i : Instr} (h : i.wellFormed = true) : i.CutFrom (encode i) := by
  cases i with
  | addr reg => exact (argByte_append _ reg).symm
  | write data => exact (argByte_append _ data).symm
  | setclk freq => exact (argFreq_append _ (of_decide_eq_true h)).symm
  | _ => trivial

/-- What the decoder cuts out of a word fits the command's format (R66). -/
theorem wellFormed_of_cutFrom {w : Word} {i : Instr} (h : i.CutFrom w) : i.wellFormed = true := by
  cases i with
  | setclk freq =>
    obtain rfl : freq = argFreq w := h
    rw [argFreq_eq, Instr.wellFormed, low_mask]
    exact decide_eq_true (Nat.mod_lt _ (by decide))
  | _ => rfl

/-- Cutting a byte out of `arg` and widening it again clears the other bits. -/
theorem setWidth_argByte (w : Word) : (argByte w).setWidth 28 = argField w &&& 0xFF#28 := by
  apply BitVec.eq_of_toNat_eq
  have h : (argByte w).toNat = (argField w).toNat % 2 ^ 8 := by simp [argByte]
  calc ((argByte w).setWidth 28).toNat = (argField w).toNat % 2 ^ 8 := by rw [BitVec.toNat_setWidth, h]; omega
    _ = (argField w &&& 0xFF#28).toNat := (Nat.and_two_pow_sub_one_eq_mod _ 8).symm

/-- Decoding keeps exactly the bits of `arg` that the command uses (R69). -/
theorem operand_of_cutFrom {w : Word} {i : Instr} (h : i.CutFrom w) :
    i.operand = argField w &&& argField i.usedBits := by
  cases i with
  | addr reg => obtain rfl : reg = argByte w := h; rw [Instr.operand, Instr.usedBits]; exact setWidth_argByte w
  | write data => obtain rfl : data = argByte w := h; rw [Instr.operand, Instr.usedBits]; exact setWidth_argByte w
  | setclk freq =>
    obtain rfl : freq = argFreq w := h
    rw [Instr.operand, Instr.usedBits, argFreq, BitVec.setWidth_setWidth_of_le _ (by decide), BitVec.setWidth_eq]
    exact BitVec.and_allOnes.symm
  | _ => exact BitVec.and_zero.symm

/-- Every command's word uses all of `op`. -/
theorem opField_usedBits (i : Instr) : opField i.usedBits = BitVec.allOnes 4 := by
  cases i <;> simp [Instr.usedBits, opField]

/-- The word of a decoded command is the word it was decoded from, with the unused bits cleared. -/
theorem encode_of_decode {w : Word} {i : Instr} (h : decode w = .ok i) : encode i = w &&& i.usedBits := by
  obtain ⟨hop, hcut⟩ := decode_eq_ok_iff.1 h
  apply word_ext
  · rw [encode, opField_append, opField_and, opField_usedBits, BitVec.and_allOnes, hop]
  · rw [encode, argField_append, argField_and, operand_of_cutFrom hcut]

theorem decode_encode {i : Instr} (h : i.wellFormed = true) : decode (encode i) = .ok i :=
  decode_eq_ok_iff.2 ⟨opField_append _ _, cutFrom_encode h⟩

/-- Settles O3: both directions compare the two fields of the word. -/
theorem decodeEncodeAgree : Obligations.DecodeEncodeAgree :=
  ⟨fun _ => decode_encode, fun _ _ h => ⟨wellFormed_of_cutFrom (decode_eq_ok_iff.1 h).2, encode_of_decode h⟩⟩

end Sys2Proof

namespace Sys2Proof.Machine

/-! ## The command port and the step (R60, R61, R64, R68) -/

/-- The state that a step leaves when it takes the command `i` and leaves the words `rest`. -/
def afterCommand (i : Instr) (rest : List Word) (s : State) : State :=
  elapse (finish i (effect i (accept rest s)))

theorem step_eq_afterCommand {s : State} {w : Word} {rest : List Word} {i : Instr} (hb : s.busy = false)
    (hh : s.host = w :: rest) (hd : decode w = .ok i) : step s = .next (afterCommand i rest s) := by
  rw [step_command hb hh hd, exec_eq]
  rfl

/-- Settles O4: the meaning of the command gives a next state, and `elapse` follows. -/
theorem stepRunsTheDecodedCommand : Obligations.StepRunsTheDecodedCommand := fun _ _ _ i hb hh hd =>
  ⟨_, exec_eq i _, step_eq_afterCommand hb hh hd⟩

/-- From a port that was ready, a reserved word leaves only the taken word and the response 0 (R68). -/
theorem reservedCommand_accept {s : State} (hb : s.busy = false) (rest : List Word) :
    reservedCommand (accept rest s) = { s with host := rest, responses := s.responses ++ [0#32] } := by
  simp only [reservedCommand, respond, accept, hb]
  rfl

/-- Settles O5: a reserved word is rejected by the decoder, and the step answers it. -/
theorem reservedWordsOnlyAnswerZero : Obligations.ReservedWordsOnlyAnswerZero := by
  intro s w rest hb hh hop
  have hstep := step_reserved hb hh (decode_reserved hop)
  rw [reservedCommand_accept hb] at hstep
  exact ⟨_, _, hstep⟩

/-- Settles O6: `elapse` writes the generator's count and the moment only. -/
theorem busyPortAcceptsNothing : Obligations.BusyPortAcceptsNothing := fun _ hb =>
  ⟨_, _, step_busy hb⟩

/-- A command gives its response at its end only (R64). -/
theorem effect_responses (i : Instr) (s : State) : (effect i s).responses = s.responses := by
  cases i with
  | setclk f => simp only [effect, setClock]; split <;> simp
  | init => simp only [effect, initialise, defaultClock_eq]; split <;> simp [busSetup, busReset_eq]
  | _ => simp [effect, busReset_eq, busAddr_eq, busWrite_eq, busRead_eq]

/-- A command completes with one response behind the earlier ones (R60). -/
theorem finish_effect_responses (i : Instr) (s : State) :
    (finish i (effect i s)).responses = s.responses ++ [answer i (effect i s)] := by
  rw [finish, respond_responses, effect_responses]

theorem finish_effect_host (i : Instr) (s : State) : (finish i (effect i s)).host = s.host :=
  (effect_surroundings i s).2.1

/-- Settles O9: the effect leaves the responses and the host's words alone, and the response ends the command. -/
theorem eachCommandAnswersOnce : Obligations.EachCommandAnswersOnce := fun i s =>
  ⟨_, _, exec_eq i s, finish_effect_responses i s, rfl, finish_effect_host i s⟩

section
variable (i : Instr) (rest : List Word) (s : State)

@[simp] theorem afterCommand_busy : (afterCommand i rest s).busy = false := rfl

@[simp] theorem afterCommand_rdata : (afterCommand i rest s).rdata = (effect i (accept rest s)).rdata := rfl

@[simp] theorem afterCommand_host : (afterCommand i rest s).host = rest :=
  finish_effect_host i (accept rest s)

@[simp] theorem afterCommand_responses :
    (afterCommand i rest s).responses = s.responses ++ [answer i (effect i (accept rest s))] :=
  finish_effect_responses i (accept rest s)

end

/-- A step of a ready port with a word waiting takes that word and gives one response, whatever it is (R60, R68). -/
theorem step_answers {s : State} {w : Word} {rest : List Word} (hb : s.busy = false) (hh : s.host = w :: rest) :
    ∃ t v, step s = .next t ∧ t.host = rest ∧ t.busy = false ∧ t.responses = s.responses ++ [v] := by
  cases hd : decode w with
  | ok i =>
    exact ⟨_, _, step_eq_afterCommand hb hh hd, afterCommand_host i rest s, rfl, afterCommand_responses i rest s⟩
  | error e => exact ⟨_, 0, step_reserved hb hh hd, rfl, rfl, rfl⟩

/-- As many steps as the host has words answer them all, one response each. -/
theorem run_answers (ws : List Word) :
    ∀ s : State, s.busy = false → s.host = ws →
      ∃ t vs, Host.Core.run Sys2Proof.core ws.length s = .next t ∧ t.host = [] ∧ t.busy = false ∧
        t.responses = s.responses ++ vs ∧ vs.length = ws.length := by
  induction ws with
  | nil => exact fun s hb hh => ⟨s, [], rfl, hh, hb, (List.append_nil _).symm, rfl⟩
  | cons w ws ih =>
    intro s hb hh
    obtain ⟨t, v, hstep, hhost, hbusy, hresp⟩ := step_answers hb hh
    obtain ⟨u, vs, hrun, hu, hub, hur, hlen⟩ := ih t hbusy hhost
    refine ⟨u, v :: vs, (run_next _ hstep).trans hrun, hu, hub, ?_, congrArg (· + 1) hlen⟩
    rw [hur, hresp, List.append_assoc, List.singleton_append]

/-- Settles O10, by induction on the host's words. -/
theorem everyIssuedWordIsAnswered : Obligations.EveryIssuedWordIsAnswered := fun s hb =>
  run_answers s.host s hb rfl

/-! ## The response words (R67) -/

theorem byteResponse_eq_append (b : Byte) : byteResponse b = 0#24 ++ b := by
  rw [byteResponse, BitVec.setWidth_eq_append (by decide)]
  rfl

/-- Every command completes and its response is its answer. -/
theorem exec_answers (i : Instr) (s : State) :
    ∃ t, exec i s = .next t ∧ t.responses = s.responses ++ [answer i (effect i s)] :=
  ⟨_, exec_eq i s, finish_effect_responses i s⟩

section
variable (b : Bool) (c : BitVec 4)

theorem typeResponse_ctype : (typeResponse b c).extractLsb' 0 4 = c :=
  BitVec.extractLsb'_append_eq_right

theorem typeResponse_iddone : (typeResponse b c).getLsbD 4 = b := by
  rw [typeResponse, BitVec.getLsbD_append, BitVec.append_ofBool]
  exact BitVec.getLsbD_concat_zero

theorem typeResponse_zeros : (typeResponse b c).extractLsb' 5 27 = 0#27 := by
  rw [typeResponse, BitVec.extractLsb'_append_eq_of_le (by decide)]
  exact BitVec.extractLsb'_append_eq_left

theorem flagResponse_flag : (flagResponse b).getLsbD 0 = b := by
  cases b <;> rfl

theorem flagResponse_zeros : (flagResponse b).extractLsb' 1 31 = 0#31 := by
  cases b <;> rfl

end

/-- Settles O11: the answer of each command, read off the state its effect leaves. -/
theorem responseWords : Obligations.ResponseWords := by
  intro s
  refine ⟨?_, ?_, exec_answers .getclk s, exec_answers .gethash s, ?_, ?_, ?_⟩
  · rintro i (rfl | ⟨a, rfl⟩ | ⟨d, rfl⟩ | ⟨f, rfl⟩ | rfl | rfl)
    all_goals exact exec_answers _ s
  · refine ⟨_, exec_eq .read s, ?_⟩
    rw [finish_effect_responses, ← byteResponse_eq_append]
    rfl
  · exact ⟨_, _, exec_eq .gettype s, finish_effect_responses .gettype s, typeResponse_ctype _ _,
      typeResponse_iddone _ _, typeResponse_zeros _ _⟩
  · exact ⟨_, _, exec_eq .isready s, finish_effect_responses .isready s, flagResponse_flag _, flagResponse_zeros _⟩
  · intro w rest hb hh hop
    exact ⟨_, step_reserved hb hh (decode_reserved hop), rfl⟩

/-! ## The pseudo-commands `WRREG` and `RDREG` (R72, R9) -/

/-- A host that issues two well-formed commands has them run in two steps. -/
theorem run_two_commands {s : State} {i j : Instr} (hb : s.busy = false) (hh : s.host = [encode i, encode j])
    (hi : i.wellFormed = true) (hj : j.wellFormed = true) :
    Host.Core.run Sys2Proof.core 2 s = .next (afterCommand j [] (afterCommand i [encode j] s)) := by
  rw [run_next 1 (step_eq_afterCommand hb hh (decode_encode hi)),
    run_next 0 (step_eq_afterCommand (afterCommand_busy ..) (afterCommand_host ..) (decode_encode hj))]
  rfl

section
variable {s : State} {d : Byte} (h : s.lines = Lines.rest d) (rest : List Word)
include h

/-- What an `ADDR` step adds to the bus trace, and how it leaves the lines (R83). -/
theorem afterCommand_addr (a : Byte) :
    (afterCommand (.addr a) rest s).trace = s.trace ++ addrTrace s.board a ∧
      (afterCommand (.addr a) rest s).lines = Lines.rest a ∧ (afterCommand (.addr a) rest s).board = s.board := by
  rw [afterCommand, effect, busAddr_rest (s := accept rest s) h]
  exact ⟨rfl, rfl, rfl⟩

/-- What a `WRITE` step adds to the bus trace (R85). -/
theorem afterCommand_write_trace (x : Byte) :
    (afterCommand (.write x) rest s).trace = s.trace ++ writeTrace s.board x := by
  rw [afterCommand, effect, busWrite_rest (s := accept rest s) h]
  rfl

/-- What a `READ` step adds to the bus trace (R87). -/
theorem afterCommand_read_trace :
    (afterCommand .read rest s).trace = s.trace ++ readTrace s.board d (afterCommand .read rest s).rdata := by
  rw [afterCommand, effect, busRead_rest (s := accept rest s) h]
  rfl

end

/-- Settles O23: two steps, the first of which latches the address and leaves the lines at rest. -/
theorem pseudoCommandsAreTwoCommands : Obligations.PseudoCommandsAreTwoCommands := by
  intro s r b hb hs
  have hl := lines_eq_rest hs
  refine ⟨fun hh => ?_, fun hh => ?_⟩
  · obtain ⟨ht, hr, hp⟩ := afterCommand_addr hl [encode (.write b)] r
    have htrace := afterCommand_write_trace hr [] b
    rw [ht, hp, List.append_assoc] at htrace
    refine ⟨_, _, run_two_commands hb hh rfl rfl, afterCommand_host .., by simp [answer], htrace, ?_⟩
    rw [hl, psgEvents, segmentEvents_addrTrace]
    simpa using segmentEvents_writeTrace s.board r 0 [] b
  · obtain ⟨ht, hr, hp⟩ := afterCommand_addr hl [encode .read] r
    have htrace := afterCommand_read_trace hr []
    rw [ht, hp, List.append_assoc] at htrace
    refine ⟨_, _, run_two_commands hb hh rfl rfl, afterCommand_host .., by simp [answer, byteResponse], htrace, ?_⟩
    rw [hl, psgEvents, segmentEvents_addrTrace]
    simpa using segmentEvents_readTrace s.board r 0 [] _

end Sys2Proof.Machine

/-! The bus-cycle family (40_bus_cycles.md): the commands of one bus cycle, their segments, and the time commands take. -/

namespace Sys2Proof.Machine

/-! ## The commands of one bus cycle, from lines at rest (R82 to R89) -/

/-- `{op, arg}` (R62) as a disjunction: `op` in its place and `arg` below it. -/
theorem append_eq_or (op : BitVec 4) (arg : BitVec 28) : op ++ arg = (op ++ 0#28) ||| arg.setWidth 32 := by
  have harg : arg.setWidth 32 = 0#4 ++ arg := BitVec.setWidth_eq_append (by decide)
  rw [harg, BitVec.or_append, BitVec.or_zero, BitVec.zero_or]

/-- A byte operand is written below `op`, every bit between them zero (R65). -/
theorem append_byte_eq_or (op : BitVec 4) (b : Byte) :
    op ++ b.setWidth 28 = (op ++ 0#28) ||| b.setWidth 32 := by
  rw [append_eq_or, BitVec.setWidth_setWidth (by decide)]

/-- Settles O13: the effect of `RESET` is one reset cycle. -/
theorem resetPulsesTheResetLine : Obligations.ResetPulsesTheResetLine := by
  refine ⟨rfl, fun s hs => ?_⟩
  have h := lines_eq_rest hs
  rw [exec_eq, effect, busReset_rest h, h]
  rfl

/-- Settles O14: the effect of `ADDR` is one address cycle. -/
theorem addrRunsAnAddressCycle : Obligations.AddrRunsAnAddressCycle := by
  refine fun reg => ⟨append_byte_eq_or 0x2#4 reg, fun s hs => ?_⟩
  have h := lines_eq_rest hs
  rw [exec_eq, effect, busAddr_rest h, h]
  rfl

/-- Settles O15: the effect of `WRITE` is one write cycle. -/
theorem writeRunsAWriteCycle : Obligations.WriteRunsAWriteCycle := by
  refine fun data => ⟨append_byte_eq_or 0x3#4 data, fun s hs => ?_⟩
  have h := lines_eq_rest hs
  rw [exec_eq, effect, busWrite_rest h, h]
  rfl

/-- The chip side gives no bytes to no reads. -/
theorem gives_nil (e : Psg) : e.Gives [] := by
  cases e with
  | absent => exact List.forall_mem_nil _
  | chip c answers => exact List.take_nil.symm

/-- Settles O16: the effect of `READ` is one read cycle, and the byte it samples is one that the chip side gives. -/
theorem readSamplesOneByte : Obligations.ReadSamplesOneByte := by
  refine ⟨rfl, fun s hs => ?_⟩
  have h := lines_eq_rest hs
  obtain ⟨-, hdoe, -⟩ := hs
  have hgives : s.psg.Gives [readByte s] := gives_cons hdoe (gives_nil _)
  refine ⟨readByte s, fun habsent => ?_, fun c x xs hlisted => ?_, ?_⟩
  · rw [habsent] at hgives
    exact hgives _ List.mem_cons_self
  · rw [hlisted] at hgives
    simpa [Psg.Gives] using hgives.symm
  · rw [exec_eq, effect, busRead_rest h, h]
    rfl

/-- A command completes, and the segments it adds are those of what its effect adds to the trace, with nothing after it. -/
theorem runs_holding {i : Instr} {s : State} {tr : List TraceItem} {held : List Segment}
    (ht : (effect i s).trace = s.trace ++ tr) (hheld : (segments s.lines 0 (tr ++ [])).tail = held) :
    ∃ t tr, Runs i s t tr ∧ (segments s.lines 0 tr).tail = held :=
  ⟨_, tr, ⟨exec_eq i s, ht⟩, by rwa [List.append_nil] at hheld⟩

/-- Settles O18: from lines at rest each command adds the trace of its one bus cycle, whose segments are known. -/
theorem segmentsOfTheBusCycles : Obligations.SegmentsOfTheBusCycles := by
  intro s hs
  obtain ⟨d, h⟩ : ∃ d, s.lines = Lines.rest d := ⟨_, lines_eq_rest hs⟩
  refine ⟨fun a => runs_holding (tr := addrTrace s.board a) (by rw [effect, busAddr_rest h]) ?_,
    fun x => runs_holding (tr := writeTrace s.board x) (by rw [effect, busWrite_rest h]) ?_,
    runs_holding (tr := readTrace s.board d (readByte s)) (by rw [effect, busRead_rest h]) ?_,
    runs_holding (tr := resetTrace s.board d) (by rw [effect, busReset_rest h]) ?_⟩ <;>
    rw [h]
  · rw [segments_addrTrace]; rfl
  · rw [segments_writeTrace]; rfl
  · rw [segments_readTrace]; rfl
  · rw [segments_resetTrace]; rfl

/-! ## The periods of a wait (R90) -/

/-- Rounding up gives the least whole number of periods that lasts `t` ns. -/
theorem ceilPeriods_le {p : Params} {t n : Nat} (h : t * p.fCtrl ≤ n * 1000000000) : ceilPeriods p t ≤ n := by
  rw [ceilPeriods, nsPerSecond]
  generalize t * p.fCtrl = m at h ⊢
  split <;> omega

/-- Settles O20: the larger of 1 and the periods rounded up is the least number that is neither below 1 nor too short. -/
theorem waitLastsAtLeastItsFloor : Obligations.WaitLastsAtLeastItsFloor :=
  ⟨fun p t _ => ⟨le_max_left 1 _, waitItem_good p t, fun _ hn ht => max_le hn (ceilPeriods_le ht)⟩,
    fun s t => wait_eq t s⟩

/-! ## The time commands take, in every state (R80, R91, R92, R188) -/

/-- What `TraceItem.Good` asks of a wait, that it lasts at least its floor (R90), and nothing of the lines: so it holds of
what a command adds in every state, lines at rest or not. -/
def TraceItem.Timely (p : Params) : TraceItem → Prop
  | .wait t n => t * p.fCtrl ≤ n * 1000000000
  | .set _ => True
  | .sample _ => True
  | .clock _ => True

section
variable (p : Params)

@[simp] theorem set_timely (l : Lines) : (TraceItem.set l).Timely p := trivial
@[simp] theorem sample_timely (b : Byte) : (TraceItem.sample b).Timely p := trivial
@[simp] theorem clock_timely (out : Option (Nat × Nat)) : (TraceItem.clock out).Timely p := trivial
@[simp] theorem waitItem_timely (t : Nat) : (waitItem p t).Timely p := waitItem_good p t

end

/-- From `s` to `t` the bus waited `n` ns, by the floors of the waits, none of which was cut short (R80, R92). -/
structure Takes (n : Nat) (s t : State) : Prop where
  board : t.board = s.board
  trace : ∃ tr, t.trace = s.trace ++ tr ∧ minDuration tr = n ∧ ∀ x ∈ tr, x.Timely s.board

theorem Takes.refl (s : State) : Takes 0 s s := ⟨rfl, [], by simp [minDuration]⟩

theorem Takes.trans {n m : Nat} {s t u : State} (h : Takes n s t) (h' : Takes m t u) : Takes (n + m) s u where
  board := h'.board.trans h.board
  trace := by
    obtain ⟨tr, ht, hn, hw⟩ := h.trace
    obtain ⟨tr', ht', hn', hw'⟩ := h'.trace
    refine ⟨tr ++ tr', by rw [ht', ht, List.append_assoc], by rw [minDuration_append, hn, hn'], fun x hx => ?_⟩
    exact (List.mem_append.1 hx).elim (hw x) fun hx => h.board ▸ hw' x hx

section
variable (s : State)

theorem busAddr_takes (a : Byte) : Takes 500 s (busAddr a s) := by
  rw [busAddr_eq]
  exact ⟨rfl, _, rfl, rfl, by simp⟩

theorem busWrite_takes (x : Byte) : Takes 600 s (busWrite x s) := by
  rw [busWrite_eq]
  exact ⟨rfl, _, rfl, rfl, by simp⟩

theorem busRead_takes : Takes 700 s (busRead s) := by
  rw [busRead_eq]
  exact ⟨rfl, _, rfl, rfl, by simp⟩

theorem busReset_takes : Takes 600 s (busReset s) := by
  rw [busReset_eq]
  exact ⟨rfl, _, rfl, rfl, by simp⟩

theorem busSetup_takes : Takes 0 s (busSetup s) := ⟨rfl, _, rfl, rfl, by simp⟩

theorem configureClock_takes (f : Nat) : Takes 0 s (configureClock f s) := ⟨rfl, _, rfl, rfl, by simp⟩

theorem setClock_takes (freq : Word) : Takes 0 s (setClock freq s) := by
  rw [setClock]
  split
  · exact configureClock_takes s _
  · exact .refl s

theorem defaultClock_takes : Takes 0 s (defaultClock s) := by
  rw [defaultClock_eq]
  split
  · exact configureClock_takes s _
  · exact .refl s

end

/-- The floors of a bus cycle of a run added up, in ns (R92). -/
def Cycle.time : Cycle → Nat
  | .a _ => 500
  | .w _ => 600
  | .r => 700

/-- The sequencer's own updates take no time. -/
theorem runCycle_takes (c : Cycle) (s : State) : Takes c.time s (runCycle c s) := by
  cases c with
  | a x =>
    obtain ⟨hb, ht⟩ := busAddr_takes s x
    exact ⟨hb, ht⟩
  | w x =>
    obtain ⟨hb, ht⟩ := busWrite_takes s x
    exact ⟨hb, ht⟩
  | r =>
    obtain ⟨hb, ht⟩ := busRead_takes s
    exact ⟨hb, ht⟩

/-- The floors of a list of bus cycles added up. -/
def cyclesTime (cs : List Cycle) : Nat := (cs.map Cycle.time).sum

theorem runCycles_takes (cs : List Cycle) : ∀ s : State, Takes (cyclesTime cs) s (runCycles cs s) := by
  induction cs with
  | nil => exact .refl
  | cons c cs ih =>
    intro s
    rw [cyclesTime, List.map_cons, List.sum_cons]
    exact (runCycle_takes c s).trans (ih _)

theorem cyclesTime_append (cs cs' : List Cycle) : cyclesTime (cs ++ cs') = cyclesTime cs + cyclesTime cs' := by
  rw [cyclesTime, List.map_append, List.sum_append, cyclesTime, cyclesTime]

/-- A sweep that takes `n` ns at each of its positions. -/
theorem cyclesTime_flatMap {α : Type} {f : α → List Cycle} {n : Nat} (hf : ∀ x, cyclesTime (f x) = n) (xs : List α) :
    cyclesTime (xs.flatMap f) = xs.length * n := by
  induction xs with
  | nil => simp [cyclesTime]
  | cons x xs ih => rw [List.flatMap_cons, cyclesTime_append, hf, ih, List.length_cons, Nat.succ_mul, Nat.add_comm]

theorem cyclesTime_plainProbe (p : Params) (base : Byte) : cyclesTime (plainProbe p base) = 36800 := by
  rw [plainProbe, cyclesTime_append, cyclesTime_flatMap (n := 1100) fun _ => rfl,
    cyclesTime_flatMap (n := 1200) fun _ => rfl, sweep_length]

theorem cyclesTime_latchProbe (p : Params) (base : Byte) : cyclesTime (latchProbe p base) = 28800 := by
  rw [latchProbe, cyclesTime_flatMap (n := 1800), sweep_length]
  simp [cyclesTime, Cycle.time]

theorem cyclesTime_extProbe (p : Params) (sel : Byte) : cyclesTime (extProbe p sel) = 35600 := by
  rw [extProbe, cyclesTime_append, cyclesTime_append, cyclesTime_flatMap (n := 1100) fun _ => rfl,
    cyclesTime_flatMap (n := 1200) fun _ => rfl, extSweep_length]
  simp [cyclesTime, Cycle.time]

/-- The minimum time of a run, whatever the parameters (R122). -/
theorem cyclesTime_identCycles (p : Params) : cyclesTime (identCycles p) = 202400 := by
  simp only [identCycles, cyclesTime_append, cyclesTime_plainProbe, cyclesTime_latchProbe, cyclesTime_extProbe]

theorem identify_takes (s : State) : Takes 202400 s (identify s) := by
  have hrun := runCycles_takes (identCycles s.board) (seedRun (clearIddone s))
  rw [cyclesTime_identCycles] at hrun
  rw [identify]
  generalize runCycles _ _ = t at hrun ⊢
  exact ⟨hrun.board, hrun.trace⟩

theorem initialise_takes (s : State) : Takes 203000 s (initialise s) := by
  have hsetup := (busReset_takes s).trans (busSetup_takes _)
  have hclock := (identify_takes (busSetup (busReset s))).trans (defaultClock_takes _)
  exact hsetup.trans hclock

/-- The minimum duration of a command, in ns (R92, R122, R188). -/
def minTime : Instr → Nat
  | .reset => 600
  | .addr _ => 500
  | .write _ => 600
  | .read => 700
  | .setclk _ => 0
  | .getclk => 0
  | .ident => 202400
  | .init => 203000
  | .gethash => 0
  | .gettype => 0
  | .isready => 0

theorem effect_takes (i : Instr) (s : State) : Takes (minTime i) s (effect i s) := by
  cases i with
  | reset => exact busReset_takes s
  | addr a => exact busAddr_takes s a
  | write d => exact busWrite_takes s d
  | read => exact busRead_takes s
  | setclk f => exact setClock_takes s f
  | ident => exact identify_takes s
  | init => exact initialise_takes s
  | getclk | gethash | gettype | isready => exact .refl s

/-- Every command completes in every state, having waited for its minimum duration. -/
theorem runs_for_minTime (i : Instr) (s : State) : ∃ t tr, Runs i s t tr ∧ minDuration tr = minTime i :=
  let ⟨tr, ht, hn, _⟩ := (effect_takes i s).trace
  ⟨_, tr, ⟨exec_eq i s, ht⟩, hn⟩

/-- Settles O21: the waits of a command are those of its effect. -/
theorem noCommandViolatesAFloor : Obligations.NoCommandViolatesAFloor := fun i s =>
  let ⟨tr, ht, _, hw⟩ := (effect_takes i s).trace
  ⟨_, tr, ⟨exec_eq i s, ht⟩, fun _ _ hx => hw _ hx⟩

/-- Two commands one after the other take the sum of their minimum durations. -/
theorem two_run_for_minTime (i j : Instr) (s : State) :
    ∃ t u tr tr', Runs i s t tr ∧ Runs j t u tr' ∧ minDuration (tr ++ tr') = minTime i + minTime j :=
  let ⟨t, tr, hi, hn⟩ := runs_for_minTime i s
  let ⟨u, tr', hj, hn'⟩ := runs_for_minTime j t
  ⟨t, u, tr, tr', hi, hj, by rw [minDuration_append, hn, hn']⟩

/-- Settles O22: a command's waits add up to its minimum duration, lines at rest or not. -/
theorem minimumDurations : Obligations.MinimumDurations := by
  intro s _
  refine ⟨fun i => ?_, fun r b => two_run_for_minTime (.addr r) (.write b) s,
    fun r => two_run_for_minTime (.addr r) .read s⟩
  obtain ⟨t, tr, hrun, hn⟩ := runs_for_minTime i s
  exact ⟨t, tr, hrun, hn.trans (by cases i <;> rfl)⟩

end Sys2Proof.Machine

/-! The clock family (41_clock.md): what `SETCLK` configures, which commands reach the generator, that the bus does not
depend on it, and the four reads. -/

namespace Sys2Proof.Machine

/-! ## The four reads (R103, R143 to R145) -/

/-- The response of `GETTYPE` as a number: `IDDONE` in bit 4, `CTYPE` below it (R144). -/
theorem typeResponse_eq_add :
    ∀ (b : Bool) (c : BitVec 4), typeResponse b c = (if b = true then 0x10#32 else 0#32) + c.setWidth 32 := by
  decide

/-- `READY` as R27 spells it out. -/
theorem ready_iff (s : State) : ready s = true ↔ s.iddone = true ∧ s.ctype ≠ 0#4 ∧ s.ctype ≠ 1#4 := by
  simp [ready, ChipType.code, and_assoc]

/-- A flag is answered as 1 or 0 (R145). -/
theorem flagResponse_eq_ite (b : Bool) : flagResponse b = if b = true then 1#32 else 0#32 := by
  cases b <;> rfl

/-- Settles O28: the four reads have no effect but their response, and each answers its register or flag. -/
theorem statusReadsChangeNothing : Obligations.StatusReadsChangeNothing := by
  refine ⟨rfl, rfl, rfl, rfl, fun s => ⟨exec_eq .getclk s, exec_eq .gethash s, ?_, ?_⟩⟩
  · rw [exec_eq, ← typeResponse_eq_add]
    rfl
  · simp only [← ready_iff, ← flagResponse_eq_ite]
    exact exec_eq .isready s

/-! ## What `SETCLK` configures (R101, R102, R105) -/

/-- A frequency below 2^28 is written below `op` (R66). -/
theorem append_freq_eq_or (op : BitVec 4) {freq : Word} (h : freq.toNat < 2 ^ 28) :
    op ++ freq.setWidth 28 = (op ++ 0#28) ||| freq := by
  have hfreq := argFreq_append op h
  rw [argFreq, argField_append] at hfreq
  rw [append_eq_or, hfreq]

theorem setClock_inBand {s : State} {freq : Word} (h : s.board.InBand freq.toNat) :
    setClock freq s = configureClock freq.toNat s := if_pos h

theorem setClock_outOfBand {s : State} {freq : Word} (h : ¬ s.board.InBand freq.toNat) : setClock freq s = s := if_neg h

/-- Settles O24: in the band the effect of `SETCLK` is one configuration of the generator, outside it is none. -/
theorem setclkConfiguresOnlyInBand : Obligations.SetclkConfiguresOnlyInBand := by
  refine fun s freq => ⟨append_freq_eq_or 0x5#4, fun hin => ?_, fun hout => ?_⟩
  · rw [exec_eq, effect, setClock_inBand hin]
    rfl
  · rw [exec_eq, effect, setClock_outOfBand (by omega)]
    rfl

/-- On a board that meets R6 both registers hold a request in the band exactly, and neither is 0 (R105). -/
theorem configureClock_exact {s : State} {f : Nat} (hv : s.board.Valid) (hf : s.board.InBand f) :
    (configureClock f s).clkdiv.toNat = s.board.divider f ∧ 1 ≤ s.board.divider f ∧
      (configureClock f s).rclock.toNat = s.board.achieved f ∧ 1 ≤ s.board.achieved f := by
  obtain ⟨-, ⟨-, hd⟩, -⟩ := hv
  obtain ⟨hdiv, hdiv', hach, hach'⟩ := hd f (Nat.lt_succ_of_le hf.2) hf.1
  exact ⟨(BitVec.toNat_ofNat ..).trans (Nat.mod_eq_of_lt hdiv'), hdiv,
    (BitVec.toNat_ofNat ..).trans (Nat.mod_eq_of_lt hach'), hach⟩

/-- The default divider of R5 (log entry 6). -/
theorem divider_default {p : Params} (h : p.dividers = []) (f : Nat) : p.divider f = p.fOsc / f := by
  simp [Params.divider, h]

/-- The default divider is rounded down, so the frequency it achieves is no lower than the request (R105). -/
theorem le_achieved_default {p : Params} {f : Nat} (h : p.dividers = []) (hdiv : 1 ≤ p.divider f) :
    f ≤ p.achieved f := by
  rw [Params.achieved, Nat.le_div_iff_mul_le hdiv, divider_default h]
  exact Nat.mul_div_le p.fOsc f

/-- Settles O25: `SETCLK` in the band configures the generator, exactly. -/
theorem achievedClockIsExactAndNonzero : Obligations.AchievedClockIsExactAndNonzero := by
  intro s freq hv hin
  obtain ⟨hclkdiv, hdiv, hrclock, hach⟩ := configureClock_exact hv hin
  refine ⟨_, exec_eq (.setclk freq) s, ?_⟩
  rw [effect, setClock_inBand hin]
  refine ⟨hclkdiv, hclkdiv ▸ hdiv, hrclock, hrclock ▸ hach, rfl, fun hdefault => ⟨?_, ?_⟩⟩
  · exact hclkdiv.trans (divider_default hdefault _)
  · exact hrclock ▸ le_achieved_default hdefault hdiv

/-! ## Which commands reach the generator (R100, R23) -/

theorem setClock_clken {s : State} (freq : Word) (h : s.clken = true) : (setClock freq s).clken = true := by
  rw [setClock]
  split
  · rfl
  · exact h

theorem defaultClock_clken {s : State} (h : s.clken = true) : (defaultClock s).clken = true := by
  rw [defaultClock_eq]
  split
  · rfl
  · exact h

theorem initialise_clken {s : State} (h : s.clken = true) : (initialise s).clken = true := by
  rw [initialise]
  refine defaultClock_clken ?_
  simpa [busSetup, busReset_eq] using h

/-- No command stops the generator (R23). -/
theorem effect_clken (i : Instr) {s : State} (h : s.clken = true) : (effect i s).clken = true := by
  by_cases hset : ∃ f, i = .setclk f
  · obtain ⟨f, rfl⟩ := hset
    exact setClock_clken f h
  by_cases hinit : i = .init
  · subst hinit
    exact initialise_clken h
  obtain ⟨-, -, hclken⟩ := effect_clock s (not_exists.1 hset) hinit
  exact hclken.trans h

/-- Settles O26: the frame of the clock registers, and `CLKEN` in the two commands that write it. -/
theorem onlySetclkAndInitTouchTheClock : Obligations.OnlySetclkAndInitTouchTheClock := fun i s =>
  ⟨_, exec_eq i s, fun hset hinit =>
    let ⟨hrclock, hclkdiv, hclken⟩ := effect_clock s hset hinit
    ⟨hclken, hrclock, hclkdiv⟩, effect_clken i⟩

/-! ## The bus does not depend on the generator (R106) -/

/-- The same machine with its clock generator in another state. -/
def reclock (rc cd : Word) (en : Bool) (g : Nat) (s : State) : State :=
  { s with rclock := rc, clkdiv := cd, clken := en, genCount := g }

section
variable (rc cd : Word) (en : Bool) (g : Nat)

/-- Bus cycles, their reads settled by the chip side, do the same whatever the generator is doing. -/
theorem effect_reclock {i : Instr} {s : State}
    (h : i = .reset ∨ (∃ a, i = .addr a) ∨ (∃ d, i = .write d) ∨ (i = .read ∧ s.psg.Settled 1) ∨
      (i = .ident ∧ s.psg.Settled 94)) :
    effect i (reclock rc cd en g s) = reclock rc cd en g (effect i s) := by
  obtain rfl | ⟨a, rfl⟩ | ⟨d, rfl⟩ | ⟨rfl, hs⟩ | ⟨rfl, hs⟩ := h
  · simp only [effect, reclock, busReset_eq]
  · simp only [effect, reclock, busAddr_eq]
  · simp only [effect, reclock, busWrite_eq]
  · simp only [effect, reclock, busRead_eq, readByte_clock hs]
  · rw [← readCount_identCycles s.board] at hs
    exact identify_clock hs rc cd en g

/-- Only the answer to `GETCLK` looks at the generator (R103). -/
theorem finish_reclock {i : Instr} (h : i ≠ .getclk) (s : State) :
    finish i (reclock rc cd en g s) = reclock rc cd en g (finish i s) := by
  cases i with
  | getclk => exact absurd rfl h
  | _ => rfl

end

theorem SameBus.reclock (rc cd : Word) (en : Bool) (g : Nat) (s : State) : SameBus (reclock rc cd en g s) s :=
  ⟨rfl, rfl, rfl⟩

theorem SameBus.busRead {s t : State} (h : SameBus s t) : SameBus (busRead s) (busRead t) :=
  let ⟨hl, he, hd⟩ := SameBus.runCycles [.r] h
  ⟨hl, he, hd⟩

theorem SameBus.identify {s t : State} (h : SameBus s t) (hb : s.board = t.board) :
    SameBus (identify s) (identify t) := by
  have hstart : SameBus (seedRun (clearIddone s)) (seedRun (clearIddone t)) := ⟨h.lines, h.events, h.time⟩
  have hrun := SameBus.runCycles (identCycles t.board) hstart
  rw [Machine.identify, Machine.identify, hb]
  generalize Machine.runCycles _ (seedRun (clearIddone s)) = u at hrun ⊢
  generalize Machine.runCycles _ (seedRun (clearIddone t)) = v at hrun ⊢
  exact ⟨hrun.lines, hrun.events, hrun.time⟩

/-- What `READ` and `IDENT` do on the bus depends on no byte read and on no clock. -/
theorem SameBus.effect {i : Instr} (hi : i = .read ∨ i = .ident) {s t : State} (h : SameBus s t)
    (hb : s.board = t.board) : SameBus (effect i s) (effect i t) := by
  obtain rfl | rfl := hi
  · exact h.busRead
  · exact h.identify hb

/-- Settles O27: where the reads are settled the whole command ignores the generator; where not, its bus still does. -/
theorem busIgnoresTheClock : Obligations.BusIgnoresTheClock := by
  intro i s rc cd en g
  refine ⟨fun h => ⟨_, exec_eq i s, ?_⟩, fun hi => ⟨_, _, exec_eq i s, exec_eq i (reclock rc cd en g s), ?_⟩⟩
  · have hget : i ≠ .getclk := by rintro rfl; simp at h
    refine (exec_eq i (reclock rc cd en g s)).trans (congrArg _ ?_)
    rw [effect_reclock rc cd en g h, finish_reclock rc cd en g hget]
    rfl
  · have hset : ∀ f, i ≠ .setclk f := by rintro f rfl; simp at hi
    have hinit : i ≠ .init := by rintro rfl; simp at hi
    obtain ⟨hrclock, hclkdiv, hclken⟩ := effect_clock (reclock rc cd en g s) hset hinit
    obtain ⟨-, -, hcount, -⟩ := effect_surroundings i (reclock rc cd en g s)
    have hbus := SameBus.effect hi (SameBus.reclock rc cd en g s) rfl
    exact ⟨hrclock, hclkdiv, hclken, hcount, hbus.lines, hbus.events, hbus.time⟩

end Sys2Proof.Machine

/-! The identification family (42_identification.md): the hash step, the table of the sequence, the counts of a run, and
what `IDENT` leaves in the registers and shows the chip. -/

namespace Sys2Proof.Machine

/-! ## The hash step and the test pattern (R111, R113, R125) -/

theorem foldByte_toNat (h : Word) (b : Byte) : (foldByte h b).toNat = (31 * h.toNat + b.toNat) % 2 ^ 32 := by
  simp [foldByte]

/-- The multiplier is odd, so multiplication by it can be undone modulo 2^32. -/
theorem isUnit_multiplier : IsUnit 31#32 := .of_mul_eq_one 0xBDEF7BDF#32 rfl

theorem foldByte_bijective (b : Byte) : Function.Bijective fun h => foldByte h b :=
  (AddGroup.addRight_bijective (b.setWidth 32)).comp isUnit_multiplier.unit.mulLeft_bijective

theorem foldByte_injective (h : Word) : Function.Injective (foldByte h) := fun b b' hbb' => by
  have hwide : b.setWidth 32 = b'.setWidth 32 := add_left_cancel hbb'
  simpa using congrArg (BitVec.setWidth 8) hwide

/-- Settles O30: multiplication by an odd number and addition of a byte are each undone, and the byte is not cut. -/
theorem foldArithmetic : Obligations.FoldArithmetic :=
  ⟨foldByte_toNat, foldByte_bijective, foldByte_injective⟩

/-- Settles O31: the value for 96 bytes is two more folds after the 94 of an absent chip. -/
theorem absentHashValue : Obligations.AbsentHashValue := by
  have hsplit : List.replicate 96 0xFF#8 = List.replicate 94 0xFF#8 ++ [0xFF#8, 0xFF#8] := List.replicate_add 94 2 _
  have hrun := hash_absent
  rw [hashSeed, hAbsent] at hrun
  rw [Obligations.AbsentHashValue, hsplit, List.foldl_append, hrun]
  exact ⟨rfl, rfl⟩

theorem pattern_mixer {p : Params} {i : Fin 16} (h : i = p.regMixer) : pattern p i = 0x3F#8 := if_pos h

theorem pattern_modeBank {p : Params} {i : Fin 16} (hm : i ≠ p.regMixer) (hb : i = p.regModeBank) :
    pattern p i = 0x0F#8 := (if_neg hm).trans (if_pos hb)

theorem pattern_other {p : Params} {i : Fin 16} (hm : i ≠ p.regMixer) (hb : i ≠ p.regModeBank) :
    pattern p i = 0xFF#8 := (if_neg hm).trans (if_neg hb)

/-- Settles O32: one clause for each branch of the pattern. -/
theorem testPattern : Obligations.TestPattern := fun _ _ => ⟨pattern_mixer, pattern_modeBank, pattern_other⟩

/-! ## The run as the table of the sequence (R114, R116, R118, R121) -/

section
variable {α : Type}

/-- Two lists given by position, the second numbered on from the end of the first. -/
theorem append_map_range {f g r : Nat → α} {n m : Nat} (hf : ∀ k, k < n → f k = r k)
    (hg : ∀ k, k < m → g k = r (n + k)) :
    (List.range n).map f ++ (List.range m).map g = (List.range (n + m)).map r := by
  rw [List.range_add, List.map_append, List.map_map]
  exact congrArg₂ _ (List.map_congr_left fun k hk => hf k (List.mem_range.1 hk))
    (List.map_congr_left fun k hk => hg k (List.mem_range.1 hk))

/-- A sweep with `c` items at each position: number `k` of the whole is item `k % c` of position `k / c`. -/
theorem flatMap_range {f : Nat → Nat → α} {c : Nat} (hc : 0 < c) (m : Nat) :
    (List.range m).flatMap (fun i => (List.range c).map (f i)) =
      (List.range (m * c)).map fun k => f (k / c) (k % c) := by
  induction m with
  | zero => simp
  | succ m ih =>
    rw [List.range_succ, List.flatMap_append, ih, List.flatMap_singleton, Nat.succ_mul]
    refine append_map_range (fun _ _ => rfl) fun k hk => ?_
    rw [Nat.mul_comm, Nat.mul_add_div hc, Nat.div_eq_of_lt hk, Nat.mul_add_mod, Nat.mod_eq_of_lt hk, Nat.add_zero]

/-- The same, the sweep being over `Fin m`. -/
theorem flatMap_finRange (f : Nat → Nat → α) {c : Nat} (hc : 0 < c) (m : Nat) :
    (List.finRange m).flatMap (fun i => (List.range c).map (f i.val)) =
      (List.range (m * c)).map fun k => f (k / c) (k % c) := by
  rw [← flatMap_range hc m, ← List.map_coe_finRange_eq_range (n := m), List.flatMap_map]

theorem flatMap_pair {m : Nat} (x y : Nat → α) :
    (List.finRange m).flatMap (fun i => [x i.val, y i.val]) =
      (List.range (m * 2)).map fun k => if k % 2 = 0 then x (k / 2) else y (k / 2) :=
  flatMap_finRange (fun i r => if r = 0 then x i else y i) two_pos m

theorem flatMap_triple {m : Nat} (x y z : Nat → α) :
    (List.finRange m).flatMap (fun i => [x i.val, y i.val, z i.val]) =
      (List.range (m * 3)).map fun k =>
        if k % 3 = 0 then x (k / 3) else if k % 3 = 1 then y (k / 3) else z (k / 3) :=
  flatMap_finRange (fun i r => if r = 0 then x i else if r = 1 then y i else z i) three_pos m

end

theorem pattern_eq_patternAt (p : Params) (i : Fin 16) : pattern p i = patternAt p i.val := by
  simp only [patternAt, pattern, Fin.ext_iff]

/-- The extended-mode sweep is the fifteen numbers, moved up by one from `REG_MODE_BANK` on. -/
theorem extSweep_eq (p : Params) : extSweep p = (List.finRange 15).map p.regModeBank.succAbove := by
  rw [extSweep]
  generalize p.regModeBank = b
  revert b
  decide

theorem regAddr_succAbove (p : Params) (j : Fin 15) : regAddr (p.regModeBank.succAbove j) = extReg p j.val := by
  simp only [extReg, regAddr, Fin.succAbove, Fin.lt_def, Fin.val_castSucc]
  split <;> rfl

/-- Where the low nibble of a select byte is 0, adding `0x0F` is setting it (R6, R118). -/
theorem bankSelect_eq_add {sel : Byte} (h : sel.extractLsb' 0 4 = 0#4) : bankSelect sel = sel + 0x0F#8 := by
  revert sel
  decide

/-- The rows of R121 for a plain probe, numbered from the probe's own first cycle. -/
def plainRow (p : Params) (base : Byte) (k : Nat) : Cycle :=
  if k < 32 then
    if k % 2 = 0 then .a (base + BitVec.ofNat 8 (k / 2)) else .w (patternAt p (k / 2))
  else
    if (k - 32) % 2 = 0 then .a (base + BitVec.ofNat 8 ((k - 32) / 2)) else .r

/-- The rows of R121 for a latch probe, likewise. -/
def latchRow (p : Params) (base : Byte) (k : Nat) : Cycle :=
  if k % 3 = 0 then .a (base + BitVec.ofNat 8 (k / 3))
  else if k % 3 = 1 then .w (patternAt p (k / 3)) else .r

/-- The rows of R121 for an extended-mode probe, likewise. -/
def extRow (p : Params) (sel : Byte) (k : Nat) : Cycle :=
  if k = 0 then .a (BitVec.ofNat 8 p.regModeBank.val)
  else if k = 1 then .w (sel + 0x0F#8)
  else if k < 32 then
    if (k - 2) % 2 = 0 then .a (extReg p ((k - 2) / 2)) else .w 0xFF#8
  else
    if (k - 32) % 2 = 0 then .a (extReg p ((k - 32) / 2)) else .r

section
variable (p : Params) (base : Byte)

theorem plainProbe_eq_rows : plainProbe p base = (List.range 64).map (plainRow p base) := by
  simp only [plainProbe, sweep, sweepAddr, pattern_eq_patternAt]
  rw [flatMap_pair (fun i => Cycle.a (base + BitVec.ofNat 8 i)) (fun i => Cycle.w (patternAt p i)),
    flatMap_pair (fun i => Cycle.a (base + BitVec.ofNat 8 i)) (fun _ => Cycle.r)]
  refine append_map_range (fun k hk => ?_) fun k _ => ?_
  · rw [plainRow, if_pos hk]
  · grind [plainRow]

theorem latchProbe_eq_rows : latchProbe p base = (List.range 48).map (latchRow p base) := by
  simp only [latchProbe, sweep, sweepAddr, pattern_eq_patternAt]
  exact flatMap_triple (fun i => Cycle.a (base + BitVec.ofNat 8 i)) (fun i => Cycle.w (patternAt p i))
    (fun _ => Cycle.r)

theorem extProbe_eq_rows {sel : Byte} (h : sel.extractLsb' 0 4 = 0#4) :
    extProbe p sel = (List.range 62).map (extRow p sel) := by
  have hselect : [.a (regAddr p.regModeBank), .w (sel + 0x0F#8)] = (List.range 2).map (extRow p sel) := rfl
  simp only [extProbe, bankSelect_eq_add h, hselect, extSweep_eq, List.flatMap_map, regAddr_succAbove]
  rw [flatMap_pair (fun i => Cycle.a (extReg p i)) (fun _ => Cycle.w 0xFF#8),
    flatMap_pair (fun i => Cycle.a (extReg p i)) (fun _ => Cycle.r),
    append_map_range (r := extRow p sel) (fun _ _ => rfl) fun k hk => ?_]
  · exact append_map_range (fun _ _ => rfl) fun k _ => by grind [extRow]
  · grind [extRow]

/-! From the first position of each probe on, the table's chain of conditions is decided by the probe's length. -/

theorem seqTable_plain0 {k : Nat} (hk : k < 64) : seqTable p k = plainRow p p.probeBase0 k := by
  grind [seqTable, plainRow]

theorem seqTable_plain1 {k : Nat} (hk : k < 64) : seqTable p (64 + k) = plainRow p p.probeBase1 k := by
  grind [seqTable, plainRow]

theorem seqTable_latch0 {k : Nat} (hk : k < 48) : seqTable p (128 + k) = latchRow p p.probeBase0 k := by
  grind [seqTable, latchRow]

theorem seqTable_latch1 {k : Nat} (hk : k < 48) : seqTable p (176 + k) = latchRow p p.probeBase1 k := by
  grind [seqTable, latchRow]

theorem seqTable_extA {k : Nat} (hk : k < 62) : seqTable p (224 + k) = extRow p p.selBankA k := by
  grind [seqTable, extRow]

theorem seqTable_extB (k : Nat) : seqTable p (286 + k) = extRow p p.selBankB k := by
  grind [seqTable, extRow]

end

/-- The run, built from its three probes, is the table of R121, read off in order. -/
theorem identCycles_eq_table {p : Params} (h : p.ProbeOk) :
    identCycles p = (List.range 348).map (seqTable p) := by
  obtain ⟨-, hA, hB⟩ := h
  rw [identCycles, plainProbe_eq_rows, plainProbe_eq_rows, latchProbe_eq_rows, latchProbe_eq_rows,
    extProbe_eq_rows p hA, extProbe_eq_rows p hB,
    append_map_range (fun _ hk => (seqTable_plain0 p hk).symm) fun _ hk => (seqTable_plain1 p hk).symm,
    append_map_range (fun _ _ => rfl) fun _ hk => (seqTable_latch0 p hk).symm,
    append_map_range (fun _ _ => rfl) fun _ hk => (seqTable_latch1 p hk).symm,
    append_map_range (fun _ _ => rfl) fun _ hk => (seqTable_extA p hk).symm,
    append_map_range (fun _ _ => rfl) fun k _ => (seqTable_extB p k).symm]

/-- Settles O33: the cycle at a position is the table's row for it. -/
theorem runFollowsTheSequenceTable : Obligations.RunFollowsTheSequenceTable := fun p h =>
  ⟨identCycles_length p, fun k hk => by
    rw [identCycles_eq_table h, List.getElem?_map, List.getElem?_range hk, Option.map_some]⟩

/-! ## The counts of a run (R122) -/

section
variable {q : Cycle → Bool}

theorem countP_cons_eq_add (c : Cycle) (cs : List Cycle) : (c :: cs).countP q = [c].countP q + cs.countP q :=
  List.countP_append (l₁ := [c])

/-- A sweep with `n` counted cycles at each of its positions. -/
theorem countP_flatMap_of_forall {α : Type} {f : α → List Cycle} {n : Nat} (hf : ∀ x, (f x).countP q = n)
    (xs : List α) : (xs.flatMap f).countP q = xs.length * n := by
  induction xs with
  | nil => simp
  | cons x xs ih => rw [List.flatMap_cons, List.countP_append, hf, ih, List.length_cons, Nat.succ_mul, Nat.add_comm]

variable {a w r : Nat} (ha : ∀ x, [Cycle.a x].countP q = a) (hw : ∀ x, [Cycle.w x].countP q = w)
  (hr : [Cycle.r].countP q = r) (p : Params)
include ha hw hr

theorem countP_plainProbe (base : Byte) : (plainProbe p base).countP q = 32 * a + 16 * w + 16 * r := by
  rw [plainProbe, List.countP_append, countP_flatMap_of_forall (n := a + w), countP_flatMap_of_forall (n := a + r),
    sweep_length]
  · ring
  · intro i; rw [countP_cons_eq_add, ha, hr]
  · intro i; rw [countP_cons_eq_add, ha, hw]

theorem countP_latchProbe (base : Byte) : (latchProbe p base).countP q = 16 * a + 16 * w + 16 * r := by
  rw [latchProbe, countP_flatMap_of_forall (n := a + (w + r)), sweep_length]
  · ring
  · intro i; rw [countP_cons_eq_add, countP_cons_eq_add (.w _), ha, hw, hr]

theorem countP_extProbe (sel : Byte) : (extProbe p sel).countP q = 31 * a + 16 * w + 15 * r := by
  rw [extProbe, List.countP_append, List.countP_append, countP_cons_eq_add, ha, hw,
    countP_flatMap_of_forall (n := a + w), countP_flatMap_of_forall (n := a + r), extSweep_length]
  · ring
  · intro i; rw [countP_cons_eq_add, ha, hr]
  · intro i; rw [countP_cons_eq_add, ha, hw]

/-- How often each kind of cycle occurs in a run, whatever the parameters. The count `q` looks at the kind alone. -/
theorem countP_identCycles : (identCycles p).countP q = 158 * a + 96 * w + 94 * r := by
  simp only [identCycles, List.countP_append, countP_plainProbe ha hw hr, countP_latchProbe ha hw hr,
    countP_extProbe ha hw hr]
  ring

end

/-- The waits of a run's trace are those of its cycles, whatever the bytes read (R92). -/
theorem minDuration_cyclesTrace (p : Params) (cs : List Cycle) :
    ∀ (d : Byte) (bs : List Byte), bs.length = readCount cs → minDuration (cyclesTrace p d cs bs) = cyclesTime cs := by
  induction cs with
  | nil => exact fun _ _ _ => rfl
  | cons c cs ih =>
    intro d bs hlen
    rw [cyclesTime, List.map_cons, List.sum_cons]
    cases c with
    | a x => rw [cyclesTrace, minDuration_append, ih x bs hlen]; rfl
    | w x => rw [cyclesTrace, minDuration_append, ih x bs hlen]; rfl
    | r =>
      obtain ⟨b, bs, rfl⟩ := List.exists_cons_of_length_eq_add_one hlen
      rw [cyclesTrace, minDuration_append, ih d bs (Nat.succ.inj hlen)]; rfl

/-- Settles O34: the counts of the three kinds of probe, added up. -/
theorem runCounts : Obligations.RunCounts := by
  intro p
  rw [← List.countP_eq_length_filter, ← List.countP_eq_length_filter]
  refine ⟨countP_identCycles (a := 1) (w := 0) (r := 0) (fun _ => rfl) (fun _ => rfl) rfl p,
    countP_identCycles (a := 0) (w := 1) (r := 0) (fun _ => rfl) (fun _ => rfl) rfl p,
    readCount_identCycles p, identCycles_length p, ?_, ?_, ?_, fun d bs hlen => ?_⟩
  · rw [readCount_append, readCount_plainProbe, readCount_plainProbe]
  · rw [readCount_append, readCount_latchProbe, readCount_latchProbe]
  · rw [readCount_append, readCount_extProbe, readCount_extProbe]
  · rw [minDuration_cyclesTrace p _ d bs (hlen.trans (readCount_identCycles p).symm), cyclesTime_identCycles]

/-! ## `IDENT` as a whole: registers, bytes read and classification (R112, R120, R124, R127) -/

section
variable (i : Instr) (s : State)

@[simp] theorem finish_hash : (finish i s).hash = s.hash := rfl
@[simp] theorem finish_ctype : (finish i s).ctype = s.ctype := rfl
@[simp] theorem finish_iddone : (finish i s).iddone = s.iddone := rfl
@[simp] theorem finish_trace : (finish i s).trace = s.trace := rfl
@[simp] theorem finish_psg : (finish i s).psg = s.psg := rfl

end

theorem exec_ident (s : State) : exec .ident s = .next (finish .ident (identify s)) := by
  rw [exec_eq, effect]

/-- Settles O35: the effect of `IDENT` is one identification run from lines at rest. -/
theorem identRunsTheSequence : Obligations.IdentRunsTheSequence := by
  refine ⟨rfl, fun s hs => ?_⟩
  have h := lines_eq_rest hs
  obtain ⟨bs, hlen, hgives, hrun⟩ := identify_rest h
  refine ⟨bs, hlen, hgives, ?_⟩
  rw [exec_ident, hrun, h]
  rfl

/-- Settles O36: the hash of a run is the fold of what its trace samples, lines at rest or not. -/
theorem hashIsAFunctionOfTheBytesRead : Obligations.HashIsAFunctionOfTheBytesRead := by
  intro s
  obtain ⟨tr, htrace, hcount, hhash, -⟩ := identify_effect s
  refine ⟨_, tr, ⟨exec_ident s, ?_⟩, hcount.trans (readCount_identCycles s.board), ?_⟩
  · rw [finish_trace, htrace]
  · rw [finish_hash, hhash]; rfl

/-- A chip gives to as many reads as it lists answers nothing but those (R43). -/
theorem eq_of_gives_listed {c : Nat} {answers rest bs : List Byte} (h : (Psg.chip c (answers ++ rest)).Gives bs)
    (hlen : bs.length = answers.length) : bs = answers := by
  have htake : (answers ++ rest).take bs.length = bs.take (answers ++ rest).length := h
  rw [hlen, List.take_left, List.take_of_length_le (by simp [hlen])] at htake
  exact htake.symm

/-- Answers are used up from the front. -/
theorem answeredTimes_chip (c n : Nat) : ∀ xs : List Byte, (Psg.chip c xs).answeredTimes n = .chip c (xs.drop n) := by
  induction n with
  | zero => exact fun xs => rfl
  | succ n ih =>
    intro xs
    rw [Psg.answeredTimes, Psg.answered, ih, List.drop_tail]

/-- A run from lines at rest on a chip that lists 94 answers folds these, classifies the result and uses them up. -/
theorem identify_listed {s : State} {c : Nat} {answers rest : List Byte} (hs : s.lines.AtRest)
    (hlen : answers.length = 94) (hp : s.psg = .chip c (answers ++ rest)) :
    (identify s).hash = answers.foldl foldByte hashSeed ∧
      (identify s).ctype = (s.board.classify (answers.foldl foldByte hashSeed)).code ∧
      (identify s).psg = .chip c rest := by
  obtain ⟨bs, hbs, hgives, hrun⟩ := identify_rest (lines_eq_rest hs)
  rw [hp] at hgives
  obtain rfl : bs = answers := eq_of_gives_listed hgives (hbs.trans hlen.symm)
  rw [hrun]
  refine ⟨rfl, rfl, ?_⟩
  rw [hp, answeredTimes_chip, ← hlen, List.drop_left]

/-- Settles O37: hash and type of both runs are functions of the listed answers and the board. -/
theorem sameAnswersGiveTheSameHash : Obligations.SameAnswersGiveTheSameHash := by
  intro s s' c c' answers rest rest' hs hs' hboard hlen hp hp'
  obtain ⟨hhash, htype, hleft⟩ := identify_listed hs hlen hp
  obtain ⟨hhash', htype', hleft'⟩ := identify_listed hs' hlen hp'
  refine ⟨_, _, exec_ident s, exec_ident s', ?_, ?_, ?_, ?_⟩
  · rw [finish_hash, finish_hash, hhash, hhash']
  · rw [finish_ctype, finish_ctype, htype, htype', hboard]
  · rw [finish_psg, hleft]
  · rw [finish_psg, hleft']

theorem defaultClock_iddone (s : State) : (defaultClock s).iddone = s.iddone := by
  rw [defaultClock_eq]
  split <;> rfl

/-- `IDENT` and `INIT` end identified, with the classification of the hash (R26, R120, R140). -/
theorem effect_classifies {i : Instr} (s : State) (hi : i = .ident ∨ i = .init) :
    (effect i s).iddone = true ∧ (effect i s).ctype = (s.board.classify (effect i s).hash).code := by
  obtain ⟨hboard, -⟩ := effect_surroundings i s
  rw [← hboard]
  obtain rfl | rfl := hi
  · exact ⟨identify_iddone s, (identify_identOk s).1 (identify_iddone s)⟩
  · have hdone : (initialise s).iddone = true := by rw [initialise, defaultClock_iddone, identify_iddone]
    exact ⟨hdone, (initialise_identOk s).1 hdone⟩

/-- An identified block is ready unless its type is one of the two that stand for no known chip (R27). -/
theorem ready_of_type {s : State} {ty : ChipType} (hd : s.iddone = true) (hc : s.ctype = ty.code) :
    ready s = true ↔ ty ≠ .notFound ∧ ty ≠ .badOrUnknown := by
  simp [ready, hd, hc, ChipType.code_injective.eq_iff]

/-- Settles O39: the classification of the hash is the table's entry for it, or `BadOrUnknown`. -/
theorem classificationIsATableLookup : Obligations.ClassificationIsATableLookup := by
  intro s i hi
  obtain ⟨hdone, htype⟩ := effect_classifies s hi
  refine ⟨_, exec_eq i s, hdone, fun ty hlookup => ?_, fun hlookup => ?_⟩ <;> rw [finish_hash] at hlookup
  · have hty : (effect i s).ctype = ty.code := by
      rw [htype, Params.classify, hlookup, Option.getD_some]
    exact ⟨hty, ready_of_type hdone hty⟩
  · have hbad : (effect i s).ctype = ChipType.badOrUnknown.code := by
      rw [htype, Params.classify, hlookup, Option.getD_none]
    exact ⟨hbad, Bool.eq_false_iff.2 fun hr => ((ready_of_type hdone hbad).1 hr).2 rfl⟩

/-! ## What the chip sees of a run (R41 to R43, R121) -/

/-- The chip sees the cycles of a run in order, whatever the bytes read. -/
theorem segmentEvents_cyclesTrace (p : Params) (cs : List Cycle) :
    ∀ (d : Byte) (t : Nat) (bs : List Byte), bs.length = readCount cs →
      segmentEvents (segments (Lines.rest d) t (cyclesTrace p d cs bs)) = cs.map Cycle.event := by
  induction cs with
  | nil => exact fun d t bs _ => rfl
  | cons c cs ih =>
    intro d t bs hlen
    cases c with
    | a x => rw [cyclesTrace, segmentEvents_addrTrace, ih x 0 bs hlen]; rfl
    | w x => rw [cyclesTrace, segmentEvents_writeTrace, ih x 0 bs hlen]; rfl
    | r =>
      obtain ⟨b, bs, rfl⟩ := List.exists_cons_of_length_eq_add_one hlen
      rw [cyclesTrace, segmentEvents_readTrace, ih d tTS bs (Nat.succ.inj hlen)]; rfl

/-- No cycle of a run touches the reset line. -/
theorem lineEvents_cyclesTrace_rst (p : Params) (cs : List Cycle) :
    ∀ (d : Byte) (bs : List Byte), ∀ l ∈ lineEvents (cyclesTrace p d cs bs), l.rst = false := by
  induction cs with
  | nil => exact fun d bs => List.forall_mem_nil _
  | cons c cs ih =>
    intro d bs
    cases c with
    | a x => simpa [cyclesTrace, lineEvents_append, addrTrace, lineEvents, setItem, waitItem] using ih x bs
    | w x => simpa [cyclesTrace, lineEvents_append, writeTrace, lineEvents, setItem, waitItem] using ih x bs
    | r =>
      cases bs with
      | nil => exact ih d []
      | cons b bs => simpa [cyclesTrace, lineEvents_append, readTrace, lineEvents, setItem, waitItem] using ih d bs

/-- Settles O40: what `IDENT` adds to the trace is what the cycles of the run prescribe. -/
theorem chipSeesTheWholeRun : Obligations.ChipSeesTheWholeRun := by
  intro s hs
  have h := lines_eq_rest hs
  obtain ⟨bs, hlen, -, hrun⟩ := identify_rest h
  refine ⟨_, cyclesTrace s.board s.lines.dout (identCycles s.board) bs, ⟨exec_ident s, ?_⟩, ?_, ?_⟩
  · rw [hrun]; rfl
  · rw [psgEvents, h]
    exact segmentEvents_cyclesTrace s.board _ _ 0 bs (hlen.trans (readCount_identCycles s.board).symm)
  · exact lineEvents_cyclesTrace_rst s.board _ _ bs

end Sys2Proof.Machine

/-! The initialisation family (43_init_and_status.md): the four steps of `INIT`, and that `READY` gates nothing. -/

namespace Sys2Proof.Machine

/-! ## `INIT` from lines at rest (R140 to R142) -/

/-- The bus setup (R141) from lines at rest is one line event, which changes no line. -/
theorem busSetup_rest {s : State} {d : Byte} (h : s.lines = Lines.rest d) :
    busSetup s = { s with lines := Lines.rest d, trace := s.trace ++ [.set (Lines.rest d)] } := by
  rw [busSetup, setLines, h]
  rfl

/-- The first two steps of `INIT` from lines at rest: they leave the lines at rest and reach the wait timer and the trace. -/
theorem busSetup_busReset_rest {s : State} {d : Byte} (h : s.lines = Lines.rest d) :
    busSetup (busReset s) =
      { s with lines := Lines.rest d, waitTimer := 0,
               trace := s.trace ++ resetTrace s.board d ++ [.set (Lines.rest d)] } := by
  rw [busReset_rest h, busSetup_rest rfl]

/-- Settles O41: the first two steps leave the lines at rest, so the run is one from lines at rest; the default clock then
looks at an `RCLOCK` that no step before it has touched. -/
theorem initRunsItsFourSteps : Obligations.InitRunsItsFourSteps := by
  refine ⟨rfl, fun s hs => ?_⟩
  have h := lines_eq_rest hs
  obtain ⟨bs, hlen, hgives, hrun⟩ := identify_rest (s := busSetup (busReset s)) (d := s.lines.dout)
    (by rw [busSetup_busReset_rest h])
  rw [busSetup_busReset_rest h] at hgives hrun
  refine ⟨bs, hlen, hgives, ?_⟩
  rw [exec_eq, effect, initialise, busSetup_busReset_rest h, hrun, defaultClock_eq, h]
  by_cases hclock : s.rclock = 0
  · simp only [if_pos hclock]; rfl
  · simp only [if_neg hclock, List.append_nil]; rfl

/-! ## `READY` gates nothing (R146) -/

/-- The same machine with another identification result, on which `READY` depends (R27). -/
def retype (ct : BitVec 4) (d : Bool) (s : State) : State := { s with ctype := ct, iddone := d }

section
variable (ct : BitVec 4) (d : Bool) (s : State)

/-- The bus commands and `SETCLK` do the same whatever the identification result is. -/
theorem effect_retype {i : Instr}
    (h : i = .reset ∨ (∃ a, i = .addr a) ∨ (∃ b, i = .write b) ∨ i = .read ∨ (∃ f, i = .setclk f)) :
    effect i (retype ct d s) = retype ct d (effect i s) := by
  obtain rfl | ⟨a, rfl⟩ | ⟨b, rfl⟩ | rfl | ⟨f, rfl⟩ := h
  · simp only [effect, retype, busReset_eq]
  · simp only [effect, retype, busAddr_eq]
  · simp only [effect, retype, busWrite_eq]
  · simp only [effect, retype, busRead_eq]; rfl
  · by_cases hf : s.board.InBand f.toNat
    · rw [effect, setClock_inBand hf]
      exact setClock_inBand hf
    · rw [effect, setClock_outOfBand hf]
      exact setClock_outOfBand hf

/-- Only the answers to `GETTYPE` and `ISREADY` look at the identification result (R144, R145). -/
theorem finish_retype {i : Instr} (ht : i ≠ .gettype) (hr : i ≠ .isready) :
    finish i (retype ct d s) = retype ct d (finish i s) := by
  cases i with
  | gettype => exact absurd rfl ht
  | isready => exact absurd rfl hr
  | _ => rfl

/-- The first two steps of `INIT` do not look at the identification result, and the third forgets it. -/
theorem initialise_retype : initialise (retype ct d s) = initialise s := by
  have hsetup : busSetup (busReset (retype ct d s)) = retype ct d (busSetup (busReset s)) := by
    simp only [retype, busReset_eq, busSetup, setLines]
  rw [initialise, hsetup, retype, identify_ready, initialise]

/-- An identification run forgets the result of the one before it. -/
theorem effect_identification_retype {i : Instr} (h : i = .ident ∨ i = .init) :
    effect i (retype ct d s) = effect i s := by
  obtain rfl | rfl := h
  · exact identify_ready s ct d
  · exact initialise_retype ct d s

end

/-- Settles O44: the effect commutes with a change of the identification result, or forgets it, and the response of these
commands does not look at it. -/
theorem readyGatesNothing : Obligations.ReadyGatesNothing := by
  intro i s ct d
  refine ⟨_, exec_eq i s, fun h => ?_, fun h => ?_⟩
  · have ht : i ≠ .gettype := by rintro rfl; simp at h
    have hr : i ≠ .isready := by rintro rfl; simp at h
    refine (exec_eq i (retype ct d s)).trans (congrArg _ ?_)
    rw [effect_retype ct d s h, finish_retype ct d _ ht hr]
    rfl
  · refine (exec_eq i (retype ct d s)).trans (congrArg _ ?_)
    rw [effect_identification_retype ct d s h]

end Sys2Proof.Machine

/-! # What any number of steps does

The statements of the family 60_exceptions.md: every step has a next state, and without a command it only lets time pass. -/

namespace Sys2Proof.Machine

/-- Settles O7, by induction on the number of steps: an idle step is `elapse`, which leaves the host without a command and
writes nothing that the generator's count and the moment of the last step do not overwrite. -/
theorem nothingHappensWithoutACommand : Obligations.NothingHappensWithoutACommand := by
  intro n
  induction n with
  | zero => exact fun s _ => ⟨s.genCount, s.moment, rfl⟩
  | succ n ih =>
    intro s hh
    obtain ⟨g, m, hrun⟩ := ih (elapse s) ((elapse_host s).trans hh)
    exact ⟨g, m, (run_next n (step_idle hh)).trans hrun⟩

/-- Settles O8, by induction on the number of steps: each of a step's cases ends in `elapse`, so there is a next state to
run on from. -/
theorem noRunEverStops : Obligations.NoRunEverStops := by
  intro n
  induction n with
  | zero => exact fun s => ⟨s, rfl⟩
  | succ n ih =>
    intro s
    obtain ⟨u, hstep, -⟩ := step_eq_elapse s
    obtain ⟨t, hrun⟩ := ih (elapse u)
    exact ⟨t, (run_next n hstep).trans hrun⟩

end Sys2Proof.Machine

/-! The reset family (70_reset_and_hazards.md): what `INIT` guarantees, and what a power cycle forgets. -/

namespace Sys2Proof.Machine

/-! ## What `INIT` guarantees (R175) -/

/-- A change of the clock output at the end of a trace moves no line and takes no time (R93). -/
theorem segments_append_clock (out : Option (Nat × Nat)) (tr : List TraceItem) :
    ∀ (l : Lines) (t : Nat), segments l t (tr ++ [.clock out]) = segments l t tr := by
  induction tr with
  | nil => exact fun _ _ => rfl
  | cons x tr ih =>
    intro l t
    cases x with
    | set k => simp only [List.cons_append, segments, ih]
    | wait f n => exact ih l (t + f)
    | sample b => exact ih l t
    | clock out => exact ih l t

/-- A bus setup on lines at rest begins no segment (R93, R141). -/
theorem segments_set_same (l : Lines) (t : Nat) (tr : List TraceItem) :
    segments l t (.set l :: tr) = segments l t tr := if_pos rfl

/-- After the default clock a clock is running: the one that was set, or the default one, whose frequency is not 0 on a
board that meets R6 (R23, R142). -/
theorem defaultClock_running {s : State} (hv : s.board.Valid) (hc : s.clken = true ↔ s.rclock ≠ 0) :
    (defaultClock s).rclock ≠ 0 ∧ (defaultClock s).clken = true := by
  rw [defaultClock_eq]
  split
  case isTrue =>
    have ⟨⟨_, _, hband⟩, _⟩ := hv
    have hen := configureClock_clken s.board.defaultClock s
    exact ⟨(configureClock_clockOk hv hband).1.1 hen, hen⟩
  case isFalse hset => exact ⟨hset, hc.2 hset⟩

@[simp] theorem finish_rclock (i : Instr) (s : State) : (finish i s).rclock = s.rclock := rfl
@[simp] theorem finish_clken (i : Instr) (s : State) : (finish i s).clken = s.clken := rfl

/-- The steps of `INIT` before the default clock do not reach the generator. -/
theorem effect_init_running {s : State} (hv : s.board.Valid) (hc : s.clken = true ↔ s.rclock ≠ 0) :
    (effect .init s).rclock ≠ 0 ∧ (effect .init s).clken = true := by
  rw [effect, initialise]
  refine defaultClock_running ?_ ?_
  · simpa [busSetup, busReset_eq] using hv
  · simpa [busSetup, busReset_eq] using hc

/-- What `INIT` adds to the trace from lines at rest shows the chip one reset pulse and the cycles of a run: the bus setup
between them changes no line, and the clock output is not on the bus (R140, R175). -/
theorem effect_init_events {s : State} (hs : s.lines.AtRest) :
    ∃ tr, (effect .init s).trace = s.trace ++ tr ∧
      psgEvents s.lines tr = .onReset :: (identCycles s.board).map Cycle.event := by
  obtain ⟨bs, hlen, -, hexec⟩ := initRunsItsFourSteps.2 s hs
  have htrace := congrArg State.trace (Host.Outcome.next.inj ((exec_eq .init s).symm.trans hexec))
  rw [finish_trace] at htrace
  simp only [List.append_assoc] at htrace
  refine ⟨_, htrace, ?_⟩
  obtain ⟨d, h⟩ : ∃ d, s.lines = Lines.rest d := ⟨_, lines_eq_rest hs⟩
  have hrun := segmentEvents_cyclesTrace s.board (identCycles s.board) d tRB bs
    (hlen.trans (readCount_identCycles s.board).symm)
  have hsetup : ({ s.lines with phase := .idle, doe := false } : Lines) = Lines.rest d := by rw [h]; rfl
  have hd : s.lines.dout = d := by rw [h]; rfl
  rw [psgEvents, hsetup, hd, h, segmentEvents_resetTrace, List.singleton_append, segments_set_same]
  refine congrArg (PsgEvent.onReset :: ·) ?_
  split
  · rw [segments_append_clock, hrun]
  · rw [List.append_nil, hrun]

/-- Settles O42: bus events, classification and clock are those of the effect; the response changes none of them. -/
theorem initGuarantees : Obligations.InitGuarantees := by
  intro s hs hv hc
  obtain ⟨tr, htrace, hevents⟩ := effect_init_events hs
  obtain ⟨hdone, htype⟩ := effect_classifies s (.inr rfl)
  obtain ⟨hset, hen⟩ := effect_init_running hv hc
  refine ⟨_, tr, ⟨exec_eq .init s, ?_⟩, hevents, ?_⟩
  · rw [finish_trace, htrace]
  · rw [finish_iddone, finish_ctype, finish_hash, finish_rclock, finish_clken]
    exact ⟨hdone, htype, hset, hen⟩

/-! ## A power cycle (R170, R171) -/

/-- A power cycle keeps the invariant: the block is as at power-on, and the history gains safe lines and a stopped clock. -/
theorem powerCycle_inv {s : State} (v : PowerOnValues) (h : Inv s) : Inv (powerCycle v s) :=
  have hon := powerOn_inv h.board v s.psg
  { hon with
    trace := fun x hx => by
      rw [powerCycle_trace] at hx
      obtain hx | hx := List.mem_append.1 hx
      · exact h.trace x hx
      · simp only [List.mem_cons, List.not_mem_nil, or_false] at hx
        obtain rfl | rfl := hx
        · exact hon.safe
        · trivial }

/-- A power cycle looks at nothing of the block but its parameters (R170). -/
theorem powerCycle_congr (v : PowerOnValues) {s s' : State} (hb : s'.board = s.board) (hp : s'.psg = s.psg)
    (hh : s'.host = s.host) (hr : s'.responses = s.responses) (hm : s'.moment = s.moment) (ht : s'.trace = s.trace) :
    powerCycle v s' = powerCycle v s := by
  rw [powerCycle, hb, hp, hh, hr, hm, ht, powerCycle]

/-- Settles O48: the first clause is the definition of a power cycle. -/
theorem powerCycleForgetsTheBlock : Obligations.PowerCycleForgetsTheBlock := fun v _ =>
  ⟨rfl, fun _ => powerCycle_congr v, powerCycle_inv v⟩

end Sys2Proof.Machine

/-! The words of the test vectors (95_test_vectors.md V1 to V6), through the encoder and the decoder's two fields. -/

namespace Sys2Proof

/-- Settles O2: twelve of the words are the encodings of their commands; the other three also carry bits that the decoder
ignores (R69), and their two fields are those of the command. -/
theorem vectorWordsDecode : Obligations.VectorWordsDecode :=
  ⟨decode_encode (i := .reset) rfl,
    decode_encode (i := .addr 0x07#8) rfl,
    decode_encode (i := .write 0x38#8) rfl,
    decode_encode (i := .read) rfl,
    decode_encode (i := .setclk 1750000#32) rfl,
    decode_encode (i := .getclk) rfl,
    decode_encode (i := .ident) rfl,
    decode_encode (i := .init) rfl,
    decode_encode (i := .gethash) rfl,
    decode_encode (i := .gettype) rfl,
    decode_encode (i := .isready) rfl,
    decode_eq_ok_iff.2 ⟨rfl, rfl⟩,
    decode_eq_ok_iff.2 ⟨rfl, rfl⟩,
    decode_eq_ok_iff.2 ⟨rfl, trivial⟩,
    decode_encode (i := .setclk 268435455#32) rfl⟩

end Sys2Proof
